-- ==== Sys2Proof/Word.lean ====
section
/-! DEFINITION. The words of CODEC8: the widths the spec's registers and fields have. -/

namespace Sys2Proof

/-- One datum of the host port, one byte of a buffer, one character of a frame (rules R9, R51). -/
abbrev Byte := BitVec 8

/-- A 4-bit field: MOD and OPC of a command word, a key nibble, an XOR-nibble checksum (rules R8, R71). -/
abbrev Nibble := BitVec 4

/-- A 24-bit register: a rolling code or a Cover address (rule R8). -/
abbrev Word24 := BitVec 24

end Sys2Proof
end

