-- ==== Sys2Proof/Config.lean ====
section
/-! DEFINITION. The implementation parameters of 00_scope.md rule R7. They are configuration and not state (rule R203):
no access reads or writes them. Those the source fixes are plain constants. Those with a named alternative, and the two
the spec leaves OPEN, are fields of `Config.Params`, which every operation that depends on one takes as an argument. -/

namespace Sys2Proof.Config

/-- BUF_MAX: bytes of IN_BUF and of OUT_BUF (rule R7, decision D10). -/
abbrev bufMax : Nat := 32

/-- SENSOR_LEN: characters of a Sensor frame (rule R7). -/
abbrev sensorLen : Nat := 27

/-- SENSOR_MARKER_POS: the index of the start marker of a Sensor frame (rule R7, decision D25). -/
abbrev sensorMarkerPos : Nat := 3

/-- SENSOR_MARKER: the character '9' (rule R7, decision D25). -/
abbrev sensorMarker : Byte := 0x39

/-- CRC_POLY (rule R7). -/
abbrev crcPoly : Byte := 0x31

/-- CRC_INIT (rule R7). -/
abbrev crcInit : Byte := 0x00

/-- HUM_ABSENT: the masked humidity that stands for "no humidity" (rule R7). -/
abbrev humAbsent : Nat := 106

/-- CRC_POLICY: what SNDEC does on a CRC mismatch (rules R7, R166). -/
inductive CrcPolicy where
  /-- Report ChecksumMismatch and still deliver the fields. -/
  | logOnly
  /-- Report ChecksumMismatch and deliver no field. -/
  | reject
  deriving DecidableEq, Repr

/-- WEAK_BAT_MODE: which reading of the weak-battery formula holds (rules R7, R165). -/
inductive WeakBatMode where
  /-- The formula as the source writes it. -/
  | literal
  /-- Bit 7 of the raw humidity byte. -/
  | bit7
  deriving DecidableEq, Repr

/-- RC_FIELD_POLICY: what CVENC does with a rolling code above 0xFFFF (rules R7, R128). -/
inductive RcFieldPolicy where
  /-- Report RangeError and produce no frame. -/
  | refuse
  /-- Put the low 16 bits in the frame. -/
  | truncate16
  deriving DecidableEq, Repr

/-- SWITCH_OFF_BITS: the commandbits of OFF (rules R7, R100). -/
inductive SwitchOffBits where
  /-- The two characters "0F". -/
  | zeroF
  /-- The two characters "F0". -/
  | fZero
  deriving DecidableEq, Repr, Inhabited

/-- The parameters of rule R7 that have an alternative or are OPEN. -/
structure Params where
  crcPolicy     : CrcPolicy
  weakBatMode   : WeakBatMode
  rcFieldPolicy : RcFieldPolicy
  coverLead     : Byte
  switchOffBits : SwitchOffBits
  /-- PORT_BASE: the platform address of offset 0x00 of the port (rule R58). -/
  portBase      : Nat
  deriving DecidableEq, Repr

/-- SWITCH_OFF_BITS of this hardware. The spec leaves it OPEN with no default (rule R7, decision D12), so nothing can be
proved of its value: log entry 5. -/
opaque switchOffBits : SwitchOffBits

/-- PORT_BASE of this hardware, OPEN (rule R58, decision D2): log entry 7. -/
opaque portBase : Nat

/-- The values rule R7 gives this hardware, with the OPEN ones left opaque. -/
def hardware : Params where
  crcPolicy     := .logOnly
  weakBatMode   := .literal
  rcFieldPolicy := .refuse
  coverLead     := 0x41
  switchOffBits := switchOffBits
  portBase      := portBase

end Sys2Proof.Config
end

