-- ==== Sys2Proof/Syntax.lean ====
section
/-! DEFINITION. The syntax of CODEC8: its operations (30_encoding.md rule R72), the fields of a command word (rule R71),
the host's accesses (20_memory.md) and the host-program notation (rules R80, R81). -/

namespace Sys2Proof

/-- The Switch action carried by SWENC (rule R76). -/
inductive SwitchAction where
  | off
  | on
  deriving DecidableEq, Repr

/-- The operations of rule R72: one constructor for each row of spec/opcode_table.json. No operand is encoded in the
word except MOD (rule R74), and the fields here are what rule R79 makes of MOD. -/
inductive Instr where
  /-- NOP, rule R95. -/
  | nop
  /-- CRC8, rule R150. -/
  | crc8
  /-- XCS, rule R121. -/
  | xcs
  /-- CVCS, rule R123. -/
  | cvcs
  /-- SWENC, rule R101. -/
  | swenc (action : SwitchAction)
  /-- SWDEC, rule R104. -/
  | swdec
  /-- CVENC, rule R127. The code is the whole MOD field: every value is a legal encoding (rule R73). -/
  | cvenc (code : Nibble)
  /-- CVDEC, rule R130. -/
  | cvdec
  /-- SNDEC, rule R160. -/
  | sndec
  /-- RCINC, rule R125. -/
  | rcinc
  deriving DecidableEq, Repr

/-- The fields of a command word in format C8 (rule R71). -/
structure CommandWord where
  mod : Nibble
  opc : Nibble
  deriving DecidableEq, Repr

/-- The ten Cover commands, in the order of rule R75. -/
inductive CoverCommand where
  | my
  | up
  | myUp
  | down
  | myDown
  | upDown
  | myUpDown
  | prog
  | enableSun
  | disableSun
  deriving DecidableEq, Repr

/-- The status codes of rule R181, by name. -/
inductive StatusCode where
  | ok
  | invalidAddress
  | protocolMismatch
  | unsupportedCommand
  | malformedFrame
  | badStartMarker
  | checksumMismatch
  | persistenceFailure
  | transportFailure
  | illegalOp
  | rangeError
  | none
  deriving DecidableEq, Repr

/-- What the outside world can do to the block, one at a time (rules R52, R53, R55, R58, R201). -/
inductive HostEvent where
  /-- HostRead(off), rule R52. -/
  | read (off : Byte)
  /-- HostWrite(off, v), rule R53. -/
  | write (off v : Byte)
  /-- A read at a platform address (rule R58). -/
  | busRead (address : Nat)
  /-- A write at a platform address (rule R58). -/
  | busWrite (address : Nat) (v : Byte)
  /-- A read of `9 + extra` bits, wider than the port's 8: an ill-formed host action (rule R55). -/
  | wideRead (extra : Nat) (off : Byte)
  /-- A write of `9 + extra` bits: an ill-formed host action (rule R55). -/
  | wideWrite (extra : Nat) (off : Byte) (v : Nat)
  /-- The reset input, asserted between two accesses (rule R201). -/
  | reset
  deriving DecidableEq, Repr

/-- A line of a host program (rules R80, R81). -/
inductive HostLine where
  /-- An operation by its mnemonic: one write of its word to CMD. -/
  | op (i : Instr)
  /-- `.raw`: a word written to CMD as it stands, legal or not. -/
  | raw (w : Byte)
  /-- `WR off, v`. -/
  | wr (off v : Byte)
  /-- `RD off`. -/
  | rd (off : Byte)
  /-- `LDBUF "s"`. -/
  | ldbuf (s : List Byte)
  /-- `LDKEY k`. -/
  | ldkey (k : Byte)
  /-- `LDRC v`. -/
  | ldrc (v : Word24)
  /-- `LDADDR v`. -/
  | ldaddr (v : Word24)
  /-- `LDCOVER k, rc, a`. -/
  | ldcover (k : Byte) (rc a : Word24)
  /-- `COMMIT`: copies R_KEY, R_RC, R_ADDR into ARG_KEY, ARG_RC, ARG_ADDR. -/
  | commit
  /-- `RDOUT`: reads OUT_LEN, then that many bytes of OUT_BUF. -/
  | rdout
  deriving DecidableEq, Repr

end Sys2Proof
end

