-- ==== Sys2Proof/WellFormed.lean ====
section
/-! DEFINITION. What is well formed: a command word (rules R73, R77), an operation, a host access (rule R55), a line of a
host program (rule R81) and a set of parameters (rule R7). Each check is a Bool. -/

namespace Sys2Proof

/-- The legal command words of rule R73: OPC names one of the ten operations, MOD is 0 or 1 for SWENC, anything for
CVENC, and 0 for the eight others. -/
def CommandWord.wellFormed (c : CommandWord) : Bool :=
  if c.opc = 4 then decide (c.mod.toNat ≤ 1)
  else if c.opc = 6 then true
  else decide (c.opc.toNat ≤ 9) && decide (c.mod = 0)

/-- The OPC field of an operation (rule R72). -/
def Instr.opc : Instr → Nibble
  | .nop     => 0x0
  | .crc8    => 0x1
  | .xcs     => 0x2
  | .cvcs    => 0x3
  | .swenc _ => 0x4
  | .swdec   => 0x5
  | .cvenc _ => 0x6
  | .cvdec   => 0x7
  | .sndec   => 0x8
  | .rcinc   => 0x9

/-- The MOD field of an operation (rules R73, R76). -/
def Instr.mod : Instr → Nibble
  | .swenc .on  => 1
  | .cvenc code => code
  | .nop        => 0
  | .crc8       => 0
  | .xcs        => 0
  | .cvcs       => 0
  | .swenc .off => 0
  | .swdec      => 0
  | .cvdec      => 0
  | .sndec      => 0
  | .rcinc      => 0

/-- The two fields an operation stands for. -/
def Instr.fields (i : Instr) : CommandWord := { mod := i.mod, opc := i.opc }

/-- An operation is well formed when its fields are a legal command word. The constructors' types already admit legal MOD
values only, so every term of `Instr` is well formed (`Instr.wellFormed_all`): what can be ill formed is the command word,
whose check refuses 230 of the 256 words. -/
def Instr.wellFormed (i : Instr) : Bool := i.fields.wellFormed

/-- The only access width is 8 bits (rule R55): a wider access is an ill-formed host action. -/
def HostEvent.wellFormed : HostEvent → Bool
  | .read _          => true
  | .write _ _       => true
  | .busRead _       => true
  | .busWrite _ _    => true
  | .wideRead _ _    => false
  | .wideWrite _ _ _ => false
  | .reset           => true

/-- `LDBUF "s"` takes a string of at most BUF_MAX bytes (rule R81); every other line is well formed as it stands. -/
def HostLine.wellFormed : HostLine → Bool
  | .ldbuf s       => decide (s.length ≤ Config.bufMax)
  | .op _          => true
  | .raw _         => true
  | .wr _ _        => true
  | .rd _          => true
  | .ldkey _       => true
  | .ldrc _        => true
  | .ldaddr _      => true
  | .ldcover _ _ _ => true
  | .commit        => true
  | .rdout         => true

/-- COVER_LEAD is a hex-digit character (rules R7, R12, decision D17). -/
def Config.Params.wellFormed (p : Config.Params) : Bool :=
  let c := p.coverLead.toNat
  decide ((0x30 ≤ c ∧ c ≤ 0x39) ∨ (0x41 ≤ c ∧ c ≤ 0x46) ∨ (0x61 ≤ c ∧ c ≤ 0x66))

end Sys2Proof
end

