-- ==== Sys2Proof/Decode.lean ====
section
/-! DEFINITION. The decoder of 30_encoding.md rule R79, total on every byte, the encoder beside it, and the rows of the
opcode table. -/

namespace Sys2Proof

/-- Why a command word is illegal (rule R77). The block reports IllegalOp for each of them alike. -/
inductive DecodeError where
  /-- OPC is in 0xA..0xF. -/
  | reservedOpc (opc : Nibble)
  /-- An operation without modifier has MOD other than 0. -/
  | modMustBeZero (opc mod : Nibble)
  /-- SWENC has MOD above 1. -/
  | switchActionReserved (mod : Nibble)
  deriving DecidableEq, Repr

/-- MOD is bits 7:4 of the command word (rule R71). -/
def modOf (w : Byte) : Nibble := w.extractLsb' 4 4

/-- OPC is bits 3:0 of the command word (rule R71). -/
def opcOf (w : Byte) : Nibble := w.extractLsb' 0 4

/-- The command word of two fields (rule R71). -/
def commandByte (c : CommandWord) : Byte := c.mod ++ c.opc

/-- An operation that takes no modifier: legal with MOD = 0 only (rule R73). -/
def decodeModless (c : CommandWord) (i : Instr) : Except DecodeError Instr :=
  if c.mod = 0 then .ok i else .error (.modMustBeZero c.opc c.mod)

/-- SWENC's MOD names the action: 0 is OFF, 1 is ON, anything else is illegal (rules R73, R76). -/
def decodeSwitch (c : CommandWord) : Except DecodeError Instr :=
  if c.mod = 0 then .ok (.swenc .off)
  else if c.mod = 1 then .ok (.swenc .on)
  else .error (.switchActionReserved c.mod)

/-- `decode` of rule R79 on the two fields of a command word. -/
def decodeFields (c : CommandWord) : Except DecodeError Instr :=
  match c.opc.toNat with
  | 0x0 => decodeModless c .nop
  | 0x1 => decodeModless c .crc8
  | 0x2 => decodeModless c .xcs
  | 0x3 => decodeModless c .cvcs
  | 0x4 => decodeSwitch c
  | 0x5 => decodeModless c .swdec
  | 0x6 => .ok (.cvenc c.mod)
  | 0x7 => decodeModless c .cvdec
  | 0x8 => decodeModless c .sndec
  | 0x9 => decodeModless c .rcinc
  | _   => .error (.reservedOpc c.opc)

/-- `decode` of rule R79. -/
def decode (w : Byte) : Except DecodeError Instr :=
  decodeFields { mod := modOf w, opc := opcOf w }

/-- The command word of an operation (rules R71, R72, R73). -/
def encode (i : Instr) : Byte := commandByte i.fields

/-- The instruction the decoder reads from the `nbits` bits of `w`, as the opcode table numbers them. There is one format
of one length, 8 bits (rule R70): a word that is longer, or has a bit above bit 7, is no command word (log entry 15). -/
def decodeTableWord (nbits w : Nat) : Option Instr :=
  if nbits ≤ 8 ∧ w < 256 then
    match decode (BitVec.ofNat 8 w) with
    | .ok i    => some i
    | .error _ => none
  else none

/-- A row of spec/opcode_table.json: its mnemonic and its match and mask. -/
structure OpcodeRow where
  mnemonic : String
  matchBits : Byte
  mask : Byte
  deriving DecidableEq, Repr

/-- The ten rows of spec/opcode_table.json. -/
def opcodeTable : List OpcodeRow :=
  [ { mnemonic := "NOP",   matchBits := 0x00, mask := 0xFF },
    { mnemonic := "CRC8",  matchBits := 0x01, mask := 0xFF },
    { mnemonic := "XCS",   matchBits := 0x02, mask := 0xFF },
    { mnemonic := "CVCS",  matchBits := 0x03, mask := 0xFF },
    { mnemonic := "SWENC", matchBits := 0x04, mask := 0xEF },
    { mnemonic := "SWDEC", matchBits := 0x05, mask := 0xFF },
    { mnemonic := "CVENC", matchBits := 0x06, mask := 0x0F },
    { mnemonic := "CVDEC", matchBits := 0x07, mask := 0xFF },
    { mnemonic := "SNDEC", matchBits := 0x08, mask := 0xFF },
    { mnemonic := "RCINC", matchBits := 0x09, mask := 0xFF } ]

/-- The row's mnemonic of an operation. -/
def Instr.mnemonic : Instr → String
  | .nop     => "NOP"
  | .crc8    => "CRC8"
  | .xcs     => "XCS"
  | .cvcs    => "CVCS"
  | .swenc _ => "SWENC"
  | .swdec   => "SWDEC"
  | .cvenc _ => "CVENC"
  | .cvdec   => "CVDEC"
  | .sndec   => "SNDEC"
  | .rcinc   => "RCINC"

/-- The mnemonics of the rows a command word matches. -/
def matchingRows (w : Byte) : List String :=
  (opcodeTable.filter fun r => w &&& r.mask == r.matchBits).map OpcodeRow.mnemonic

end Sys2Proof
end

