-- ==== Sys2Proof/Machine/State.lean ====
section
/-! DEFINITION. The state of the machine: the block's registers and buffers (10_state.md rules R20 to R42), in the two
classes of rule R21, beside the accesses the host has still to make and the record of what the port has answered. -/

namespace Sys2Proof.Machine

/-- The contents of IN_BUF or of OUT_BUF: BUF_MAX bytes (rules R41, R42). -/
abbrev Buffer := Vector Byte Config.bufMax

/-- A buffer of zeros. -/
def Buffer.zero : Buffer := Vector.replicate Config.bufMax 0

/-- The input state of rule R21: only the host writes it. A register holds its used bits (rule R22); its reserved bits
read 0 (log entry 10). -/
structure InputState where
  /-- CMD, rule R23. -/
  cmd     : Byte
  /-- IN_LEN[5:0], rule R25. -/
  inLen   : BitVec 6
  /-- ARG_KEY[3:0], rule R27. -/
  argKey  : Nibble
  /-- ARG_RC, rule R28. -/
  argRc   : Word24
  /-- ARG_ADDR, rule R29. -/
  argAddr : Word24
  /-- IN_BUF, rule R41. -/
  inBuf   : Buffer
  deriving DecidableEq, Repr

/-- The result state of rule R21: only operations write it, and reset. -/
structure ResultState where
  /-- STATUS, rule R24. -/
  status  : Byte
  /-- OUT_LEN[5:0], rule R26. -/
  outLen  : BitVec 6
  /-- R_KEY[3:0], rule R30. -/
  rKey    : Nibble
  /-- R_RC, rule R31. -/
  rRc     : Word24
  /-- R_ADDR, rule R32. -/
  rAddr   : Word24
  /-- R_CMD[3:0], rule R33. -/
  rCmd    : Nibble
  /-- R_CRC, rule R34. -/
  rCrc    : Byte
  /-- R_CRCRX, rule R34. -/
  rCrcRx  : Byte
  /-- R_CS[3:0], rule R35. -/
  rCs     : Nibble
  /-- R_DEVID[5:0], rule R36. -/
  rDevId  : BitVec 6
  /-- R_TEMP, two's complement, rule R37. -/
  rTemp   : BitVec 16
  /-- R_HUM[6:0], rule R38. -/
  rHum    : BitVec 7
  /-- R_SFLAGS[2:0] as WB, NB, HV, rule R39. -/
  rSFlags : BitVec 3
  /-- R_BATT, rule R40. -/
  rBatt   : Byte
  /-- OUT_BUF, rule R42. -/
  outBuf  : Buffer
  deriving DecidableEq, Repr

/-- What the port has answered: the model's record (rule R183, log entry 2). -/
inductive PortEvent where
  /-- A read of `off` returned `v`. -/
  | readReply (off v : Byte)
  /-- The command word `w` was executed and left STATUS at `status`. -/
  | commandDone (w status : Byte)
  /-- The reset input was asserted. -/
  | resetDone
  deriving DecidableEq, Repr

/-- The machine. `input` and `result` are the whole state the spec gives the block (rule R20). `pending` and `history` are
the model's own: the outside world's accesses still to come, and the record of the port's answers (log entries 1, 2). -/
structure State where
  /-- Rule R21, input state. -/
  input   : InputState
  /-- Rule R21, result state. -/
  result  : ResultState
  /-- The accesses the host has issued and the block has not yet taken, oldest first (rule R60). -/
  pending : List HostEvent
  /-- The port's answers, newest first (rule R183). -/
  history : List PortEvent
  deriving DecidableEq, Repr

/-- The reasons the machine can stop with a fault: there are none. The block has no trap, exception or fault mechanism, it
never stops and never hangs (rule R180): every outcome of an operation is a status code. Nobody raises a fault, so a type
without a constructor is safe (log entry 11). -/
inductive Fault
  deriving DecidableEq, Repr

/-- The reasons the model refuses an access. -/
inductive Refusal where
  /-- An operation without a meaning. Raised by `exec`'s arm of an operation not modelled; every operation has its meaning,
  so nobody raises it. Safe: the machine stops instead of going on wrongly. -/
  | notModelled (mnemonic : String)
  /-- A host access wider than 8 bits, with its width. Raised by `perform` on `HostEvent.wideRead` and `HostEvent.wideWrite`, because
  rule R55 has a model refuse any wider access by name. Safe: nothing can be proved of what such an access does. -/
  | wideAccess (bits : Nat)
  /-- A platform access to an address outside the 256 offsets at PORT_BASE. Raised by `perform` on `HostEvent.busRead` and
  `HostEvent.busWrite`. The address is not the block's (rules R51, R58). Safe: the model says nothing of it. -/
  | outsidePort (address : Nat)
  deriving DecidableEq, Repr

/-- Rule R200, the input state after reset. -/
def InputState.reset : InputState where
  cmd     := 0x00
  inLen   := 0
  argKey  := 0
  argRc   := 0
  argAddr := 0
  inBuf   := Buffer.zero

/-- The result state with every register 0: what `ClearResults()` of rule R91 leaves. -/
def ResultState.cleared : ResultState where
  status  := 0x00
  outLen  := 0
  rKey    := 0
  rRc     := 0
  rAddr   := 0
  rCmd    := 0
  rCrc    := 0
  rCrcRx  := 0
  rCs     := 0
  rDevId  := 0
  rTemp   := 0
  rHum    := 0
  rSFlags := 0
  rBatt   := 0
  outBuf  := Buffer.zero

/-- Rule R200, the result state after reset: STATUS is 0x0F (NONE), everything else 0. -/
def ResultState.reset : ResultState := { ResultState.cleared with status := 0x0F }

/-- The machine right after reset (rule R200). No access is pending and nothing has been answered (log entries 1, 2). -/
def State.reset : State where
  input   := InputState.reset
  result  := ResultState.reset
  pending := []
  history := []

end Sys2Proof.Machine
end

