-- ==== Sys2Proof/Machine/Flags.lean ====
section
/-! DEFINITION. The fields of STATUS (10_state.md rule R24), the numbers of the status codes (60_exceptions.md rule R181)
and the flags of R_SFLAGS (rule R39). -/

namespace Sys2Proof.Machine

/-- The number of a status code (rule R181). -/
def codeNibble : StatusCode → Nibble
  | .ok                 => 0x0
  | .invalidAddress     => 0x1
  | .protocolMismatch   => 0x2
  | .unsupportedCommand => 0x3
  | .malformedFrame     => 0x4
  | .badStartMarker     => 0x5
  | .checksumMismatch   => 0x6
  | .persistenceFailure => 0x7
  | .transportFailure   => 0x8
  | .illegalOp          => 0x9
  | .rangeError         => 0xA
  | .none               => 0xF

/-- CODE, STATUS[3:0] (rule R24). -/
def statusCode (status : Byte) : Nibble := status.extractLsb' 0 4

/-- FV, STATUS[4] (rule R24). -/
def statusFv (status : Byte) : Bool := status.getLsbD 4

/-- CRC_OK, STATUS[5] (rule R24). -/
def statusCrcOk (status : Byte) : Bool := status.getLsbD 5

/-- STATUS of its three fields; bits 7:6 are 0 (rule R24). -/
def statusByte (crcOk fv : Bool) (code : Nibble) : Byte :=
  (0 : BitVec 2) ++ BitVec.ofBool crcOk ++ BitVec.ofBool fv ++ code

/-- HV, R_SFLAGS[0] (rule R39). -/
def flagHv (f : BitVec 3) : Bool := f.getLsbD 0

/-- NB, R_SFLAGS[1] (rule R39). -/
def flagNb (f : BitVec 3) : Bool := f.getLsbD 1

/-- WB, R_SFLAGS[2] (rule R39). -/
def flagWb (f : BitVec 3) : Bool := f.getLsbD 2

/-- `R_SFLAGS <- {0b00000, WB, NB, HV}` (rule R160). -/
def sflagsOf (wb nb hv : Bool) : BitVec 3 :=
  BitVec.ofBool wb ++ BitVec.ofBool nb ++ BitVec.ofBool hv

/-- The weak-battery flag of the first hex digit of the humidity byte, by WEAK_BAT_MODE (rule R165). -/
def weakFlag (mode : Config.WeakBatMode) (d : Nat) : Bool :=
  match mode with
  | .literal => (d &&& 0x8) >>> 7 == 1
  | .bit7    => (d &&& 0x8) >>> 3 == 1

/-- HV: the frame carries humidity (rule R163). -/
def humidityValid (h : Nat) : Bool := h != Config.humAbsent

/-- NB: bit 1 of the hex byte at characters 4..5 (rule R164). -/
def newBatteryFlag (pair : Nat) : Bool := (pair &&& 0x2) >>> 1 == 1

/-- battery_percent: weak takes priority over new (rule R164). -/
def batteryPercent (wb nb : Bool) : Byte := if wb then 10 else if nb then 100 else 50

end Sys2Proof.Machine
end

