-- ==== Sys2Proof/Machine/Operands.lean ====
section
/-! DEFINITION. The operands of the operations: the bytes they read from IN_BUF (40_common.md rule R93), the characters and
their conversions (00_scope.md rule R12), the Cover command table (30_encoding.md rule R75) and the constants of the wire
formats. -/

namespace Sys2Proof.Machine

/-- LEN = IN_LEN[5:0] (rule R25). -/
def InputState.len (i : InputState) : Nat := i.inLen.toNat

/-- IN_BUF[k] (rule R41). An operation asks for indices below LEN only, and LEN is at most BUF_MAX where it does
(rule R93), so the value above the buffer is never used. -/
def InputState.inByte (i : InputState) (k : Nat) : Byte := i.inBuf.toList.getD k 0

/-- IN_BUF[a..a+n-1]. -/
def InputState.slice (i : InputState) (a n : Nat) : List Byte := (i.inBuf.toList.drop a).take n

/-- IN_BUF[0..LEN-1]. -/
def InputState.inBytes (i : InputState) : List Byte := i.slice 0 i.len

/-- `isdec(c)` of rule R12. -/
def isdec (c : Byte) : Bool := decide (0x30 ≤ c.toNat) && decide (c.toNat ≤ 0x39)

/-- An uppercase hex letter, 'A'..'F'. -/
def isUpperHex (c : Byte) : Bool := decide (0x41 ≤ c.toNat) && decide (c.toNat ≤ 0x46)

/-- A lowercase hex letter, 'a'..'f'. -/
def isLowerHex (c : Byte) : Bool := decide (0x61 ≤ c.toNat) && decide (c.toNat ≤ 0x66)

/-- `ishex(c)` of rule R12. -/
def ishex (c : Byte) : Bool := isdec c || isUpperHex c || isLowerHex c

/-- `decval(c)` of rule R12, defined only when `isdec c`: no operation asks for it otherwise (log entry 13). -/
def decval (c : Byte) : Nat := c.toNat - 0x30

/-- `hexval(c)` of rule R12, defined only when `ishex c`: no operation asks for it otherwise (log entry 13). -/
def hexval (c : Byte) : Nat :=
  if isdec c then c.toNat - 0x30
  else if isUpperHex c then c.toNat - 0x37
  else c.toNat - 0x57

/-- `hexbyte(k)` of rule R12. -/
def hexbyte (i : InputState) (k : Nat) : Nat := 16 * hexval (i.inByte k) + hexval (i.inByte (k + 1))

/-- `hexchar(n)` of rule R12: the uppercase digit of a nibble. -/
def hexchar (n : Nat) : Byte := if n ≤ 9 then BitVec.ofNat 8 (0x30 + n) else BitVec.ofNat 8 (0x37 + n)

/-- `hexstr_k(v)` of rule R12: k digits, the most significant first. -/
def hexstr : Nat → Nat → List Byte
  | 0, _     => []
  | k + 1, v => hexchar (v / 16 ^ k % 16) :: hexstr k v

/-- The number a string of hex digits stands for, most significant digit first: the sums of rule R130. -/
def hexnum (l : List Byte) : Nat := l.foldl (fun acc c => 16 * acc + hexval c) 0

/-- A symbol of a Switch address: exactly 0x30 or 0x46 (rule R102). -/
def isSwitchSymbol (c : Byte) : Bool := c == 0x30 || c == 0x46

/-- The action as R_CMD holds it (rules R33, R76). -/
def actionNibble : SwitchAction → Nibble
  | .off => 0
  | .on  => 1

/-- The two characters of SWITCH_OFF_BITS (rule R100). -/
def offBits : Config.SwitchOffBits → List Byte
  | .zeroF => [0x30, 0x46]
  | .fZero => [0x46, 0x30]

/-- The commandbits of an action (rule R100): "FF" for ON, SWITCH_OFF_BITS for OFF. -/
def commandBits (p : Config.Params) : SwitchAction → List Byte
  | .on  => [0x46, 0x46]
  | .off => offBits p.switchOffBits

/-- The Cover command codes of rule R75. -/
def coverCode : CoverCommand → Nibble
  | .my         => 1
  | .up         => 2
  | .myUp       => 3
  | .down       => 4
  | .myDown     => 5
  | .upDown     => 6
  | .myUpDown   => 7
  | .prog       => 8
  | .enableSun  => 9
  | .disableSun => 10

/-- A value that names a Cover command: 1..10 (rule R75). -/
def isCoverCode (c : Nat) : Bool := decide (1 ≤ c) && decide (c ≤ 10)

/-- The placeholder '0' at body index 3 (rules R123, R126). -/
def placeholder : Byte := 0x30

/-- The two characters "is" a Switch frame begins with (rule R100). -/
def switchLead : List Byte := [0x69, 0x73]

/-- The two characters "Ys" a Cover frame begins with (rule R126). -/
def coverFrameLead : List Byte := [0x59, 0x73]

/-- The newline a frame ends with (rules R9, R100, R126). -/
def newline : Byte := 0x0A

end Sys2Proof.Machine
end

