-- ==== Sys2Proof/Machine/Ops.lean ====
section
/-! DEFINITION. The named operations over the registers: the map of the host port (10_state.md rule R22), reading and
writing one byte of it (20_memory.md rules R52, R53), clearing and finishing (40_common.md rules R91, R92), and delivering
a frame. The block has no memory and takes no exception (rules R20, R180): an error is the status code `finish` writes. -/

namespace Sys2Proof.Machine

/-- What stands at an offset of the port (rule R22). The byte of a multi-byte register is numbered from the lowest
offset, so byte 0 is the most significant one (rule R50). -/
inductive PortByte where
  | cmd
  | status
  | inLen
  | outLen
  | argKey
  | argRc (k : Fin 3)
  | argAddr (k : Fin 3)
  | rKey
  | rRc (k : Fin 3)
  | rAddr (k : Fin 3)
  | rCmd
  | rCrc
  | rCrcRx
  | rCs
  | rDevId
  | rTemp (k : Fin 2)
  | rHum
  | rSFlags
  | rBatt
  | inBuf (k : Fin 32)
  | outBuf (k : Fin 32)
  | reserved
  deriving DecidableEq, Repr

/-- The access rights of rule R22. -/
inductive Access where
  | readWrite
  | readOnly
  | reserved
  deriving DecidableEq, Repr

/-- The registers below the buffers: offsets 0x00..0x1F of rule R22. -/
def registerMap (n : Nat) : PortByte :=
  match n with
  | 0x00 => .cmd
  | 0x01 => .status
  | 0x02 => .inLen
  | 0x03 => .outLen
  | 0x04 => .argKey
  | 0x05 => .argRc 0
  | 0x06 => .argRc 1
  | 0x07 => .argRc 2
  | 0x08 => .argAddr 0
  | 0x09 => .argAddr 1
  | 0x0A => .argAddr 2
  | 0x0C => .rKey
  | 0x0D => .rRc 0
  | 0x0E => .rRc 1
  | 0x0F => .rRc 2
  | 0x10 => .rAddr 0
  | 0x11 => .rAddr 1
  | 0x12 => .rAddr 2
  | 0x13 => .rCmd
  | 0x14 => .rCrc
  | 0x15 => .rCrcRx
  | 0x16 => .rCs
  | 0x17 => .rDevId
  | 0x18 => .rTemp 0
  | 0x19 => .rTemp 1
  | 0x1A => .rHum
  | 0x1B => .rSFlags
  | 0x1C => .rBatt
  | _    => .reserved

/-- The map of the port (rules R22, R51). -/
def portMap (off : Byte) : PortByte :=
  let n := off.toNat
  if n < 0x20 then registerMap n
  else if n < 0x40 then .inBuf (Fin.ofNat 32 (n - 0x20))
  else if n < 0x60 then .outBuf (Fin.ofNat 32 (n - 0x40))
  else .reserved

/-- The access rights of what stands at an offset (rule R22). -/
def accessOf : PortByte → Access
  | .cmd       => .readWrite
  | .status    => .readOnly
  | .inLen     => .readWrite
  | .outLen    => .readOnly
  | .argKey    => .readWrite
  | .argRc _   => .readWrite
  | .argAddr _ => .readWrite
  | .rKey      => .readOnly
  | .rRc _     => .readOnly
  | .rAddr _   => .readOnly
  | .rCmd      => .readOnly
  | .rCrc      => .readOnly
  | .rCrcRx    => .readOnly
  | .rCs       => .readOnly
  | .rDevId    => .readOnly
  | .rTemp _   => .readOnly
  | .rHum      => .readOnly
  | .rSFlags   => .readOnly
  | .rBatt     => .readOnly
  | .inBuf _   => .readWrite
  | .outBuf _  => .readOnly
  | .reserved  => .reserved

/-- Byte k of a 24-bit register, big-endian (rule R50). -/
def byteOf24 (v : Word24) (k : Fin 3) : Byte :=
  match k with
  | 0 => v.extractLsb' 16 8
  | 1 => v.extractLsb' 8 8
  | 2 => v.extractLsb' 0 8

/-- A 24-bit register with byte k replaced: each byte is written on its own (rules R28, R29). -/
def setByteOf24 (v : Word24) (k : Fin 3) (b : Byte) : Word24 :=
  match k with
  | 0 => (v &&& 0x00FFFF) ||| (b.setWidth 24 <<< 16)
  | 1 => (v &&& 0xFF00FF) ||| (b.setWidth 24 <<< 8)
  | 2 => (v &&& 0xFFFF00) ||| b.setWidth 24

/-- Byte k of R_TEMP, big-endian (rules R37, R50). -/
def byteOf16 (v : BitVec 16) (k : Fin 2) : Byte :=
  match k with
  | 0 => v.extractLsb' 8 8
  | 1 => v.extractLsb' 0 8

/-- The current value of a byte of the port, reserved bits and reserved offsets as 0 (rule R52). -/
def readByte (i : InputState) (r : ResultState) : PortByte → Byte
  | .cmd       => i.cmd
  | .status    => r.status
  | .inLen     => i.inLen.setWidth 8
  | .outLen    => r.outLen.setWidth 8
  | .argKey    => i.argKey.setWidth 8
  | .argRc k   => byteOf24 i.argRc k
  | .argAddr k => byteOf24 i.argAddr k
  | .rKey      => r.rKey.setWidth 8
  | .rRc k     => byteOf24 r.rRc k
  | .rAddr k   => byteOf24 r.rAddr k
  | .rCmd      => r.rCmd.setWidth 8
  | .rCrc      => r.rCrc
  | .rCrcRx    => r.rCrcRx
  | .rCs       => r.rCs.setWidth 8
  | .rDevId    => r.rDevId.setWidth 8
  | .rTemp k   => byteOf16 r.rTemp k
  | .rHum      => r.rHum.setWidth 8
  | .rSFlags   => r.rSFlags.setWidth 8
  | .rBatt     => r.rBatt
  | .inBuf k   => i.inBuf[k]
  | .outBuf k  => r.outBuf[k]
  | .reserved  => 0x00

/-- `HostRead(off)` of rule R52. -/
def hostRead (s : State) (off : Byte) : Byte := readByte s.input s.result (portMap off)

/-- The storing half of `HostWrite` (rule R53): a read/write byte keeps the used bits of the datum, a write to a read-only
or reserved offset is ignored. CMD's operation is run by `hostWrite`. -/
def storeByte (i : InputState) (v : Byte) : PortByte → InputState
  | .cmd       => { i with cmd := v }
  | .inLen     => { i with inLen := v.extractLsb' 0 6 }
  | .argKey    => { i with argKey := v.extractLsb' 0 4 }
  | .argRc k   => { i with argRc := setByteOf24 i.argRc k v }
  | .argAddr k => { i with argAddr := setByteOf24 i.argAddr k v }
  | .inBuf k   => { i with inBuf := i.inBuf.set k v }
  | .status    => i
  | .outLen    => i
  | .rKey      => i
  | .rRc _     => i
  | .rAddr _   => i
  | .rCmd      => i
  | .rCrc      => i
  | .rCrcRx    => i
  | .rCs       => i
  | .rDevId    => i
  | .rTemp _   => i
  | .rHum      => i
  | .rSFlags   => i
  | .rBatt     => i
  | .outBuf _  => i
  | .reserved  => i

/-- The state with a byte of the port stored. -/
def State.store (s : State) (off v : Byte) : State := { s with input := storeByte s.input v (portMap off) }

/-- The state with another result state. -/
def State.withResult (s : State) (r : ResultState) : State := { s with result := r }

/-- The state with an answer of the port added to the record (rule R183, log entry 2). -/
def State.record (s : State) (e : PortEvent) : State := { s with history := e :: s.history }

/-- The reset input (rules R200, R201): every register takes its reset value, whatever it held. The host's pending
accesses and the model's record are not the block's (log entry 12). -/
def State.resetBlock (s : State) : State :=
  { s with input := InputState.reset, result := ResultState.reset }

/-- `ClearResults()` of rule R91: the result state every operation starts from, whatever it held before. -/
def clearResults (_ : ResultState) : ResultState := ResultState.cleared

/-- `FV <- 1`: the operation wrote valid values to its field outputs (rule R24). -/
def setFv (r : ResultState) : ResultState :=
  { r with status := statusByte (statusCrcOk r.status) true (statusCode r.status) }

/-- `CRC_OK <- b` (rules R24, R160). -/
def setCrcOk (b : Bool) (r : ResultState) : ResultState :=
  { r with status := statusByte b (statusFv r.status) (statusCode r.status) }

/-- `finish(code)` of rule R92: CODE is written, FV and CRC_OK and every result register keep what the operation gave
them. -/
def finish (code : StatusCode) (r : ResultState) : ResultState :=
  { r with status := statusByte (statusCrcOk r.status) (statusFv r.status) (codeNibble code) }

/-- Bytes written to consecutive indices of a buffer, from index k up. -/
def writeBytes (buf : Buffer) (k : Nat) : List Byte → Buffer
  | []      => buf
  | b :: bs => writeBytes (buf.setIfInBounds k b) (k + 1) bs

/-- A frame delivered: OUT_BUF[0..n-1] and OUT_LEN (rules R26, R42). -/
def putFrame (frame : List Byte) (r : ResultState) : ResultState :=
  { r with outLen := BitVec.ofNat 6 frame.length, outBuf := writeBytes r.outBuf 0 frame }

/-- OUT_BUF[0..OUT_LEN-1], the frame the host reads out (rule R65). -/
def ResultState.frame (r : ResultState) : List Byte := r.outBuf.toList.take r.outLen.toNat

/-- The state an operation leaves: `ClearResults()` and then the operation's own writes, from the input state alone
(rules R14, R90, R91). -/
def runOperation (op : InputState → ResultState → ResultState) (s : State) : State :=
  s.withResult (op s.input (clearResults s.result))

end Sys2Proof.Machine
end

