-- ==== Sys2Proof/Machine/Common.lean ====
section
/-! DEFINITION. 40_common.md: NOP (rule R95) and the illegal words (rule R94). -/

namespace Sys2Proof.Machine

/-- NOP, rule R95: the results are cleared and CODE is OK, with FV = 0. -/
def nopOp (_ : InputState) (r : ResultState) : ResultState := finish .ok r

/-- An illegal word, rule R94: the results are cleared and CODE is IllegalOp. -/
def illegalOp (_ : InputState) (r : ResultState) : ResultState := finish .illegalOp r

/-- NOP. -/
def execNop (s : State) : Host.Outcome State Fault Refusal := .next (runOperation nopOp s)

/-- Any of the 230 illegal words of rule R77. They are no rows of the opcode table, so they are no constructors of `Instr`
(log entry 4). -/
def execIllegal (s : State) : Host.Outcome State Fault Refusal := .next (runOperation illegalOp s)

end Sys2Proof.Machine
end

