-- ==== Sys2Proof/Machine/Cover.lean ====
section
/-! DEFINITION. 42_cover.md: the XOR-nibble checksum engine, the rolling-code successor, the Cover frame packer and its
verification inverse. -/

namespace Sys2Proof.Machine

/-- One round of XCSUM, rule R120: `acc ^ b ^ (b >> 4)`, the shift logical. -/
def xcsumStep (acc b : Byte) : Byte := acc ^^^ b ^^^ (b >>> 4)

/-- XCSUM, rule R120: the checksum runs over the bytes as they stand, not over the digits they may spell. -/
def xcsum (l : List Byte) : Nibble := (l.foldl xcsumStep 0).extractLsb' 0 4

/-- A 14-byte body with the placeholder put at index 3 (rules R123, R130). -/
def withPlaceholder (body : List Byte) : List Byte := body.set 3 placeholder

/-- XCS, rule R121. -/
def xcsOp (i : InputState) (r : ResultState) : ResultState :=
  if Config.bufMax < i.len then finish .malformedFrame r
  else finish .ok (setFv { r with rCs := xcsum i.inBytes })

/-- CVCS, rule R123. -/
def cvcsOp (i : InputState) (r : ResultState) : ResultState :=
  if i.len ≠ 14 then finish .malformedFrame r
  else finish .ok (setFv { r with rCs := xcsum (withPlaceholder (i.slice 0 14)) })

/-- Succ, rule R124: the key nibble mod 16 and the rolling code mod 2^24, in lock-step. -/
def coverSucc (k : Nibble) (rc : Word24) : Nibble × Word24 := (k + 1, rc + 1)

/-- The successor state and the address, as CVENC and RCINC deliver them (rules R30, R31, R32). -/
def putSuccessor (i : InputState) (r : ResultState) : ResultState :=
  { r with
    rKey  := (coverSucc i.argKey i.argRc).1
    rRc   := (coverSucc i.argKey i.argRc).2
    rAddr := i.argAddr }

/-- RCINC, rule R125: always OK. -/
def rcincOp (i : InputState) (r : ResultState) : ResultState := finish .ok (setFv (putSuccessor i r))

/-- The 14 characters of a Cover body with the character h at the checksum's place (rule R126). -/
def coverBody (p : Config.Params) (k code : Nibble) (h : Byte) (rf : Nat) (a : Word24) : List Byte :=
  [p.coverLead, hexchar k.toNat, hexchar code.toNat, h] ++ hexstr 4 rf ++ hexstr 6 a.toNat

/-- The checksum of a Cover body: the sum with the placeholder in its place (rule R127). -/
def coverSum (p : Config.Params) (k code : Nibble) (rf : Nat) (a : Word24) : Nibble :=
  xcsum (coverBody p k code placeholder rf a)

/-- The 17 bytes of a Cover frame (rules R126, R127). -/
def coverFrame (p : Config.Params) (k code : Nibble) (rf : Nat) (a : Word24) : List Byte :=
  coverFrameLead ++ coverBody p k code (hexchar (coverSum p k code rf a).toNat) rf a ++ [newline]

/-- RF of rule R127: what the frame's RRRR carries, none where RC_FIELD_POLICY refuses the rolling code (rule R128). -/
def rollingField (p : Config.Params) (rc : Word24) : Option Nat :=
  if rc.toNat ≤ 0xFFFF then some rc.toNat
  else match p.rcFieldPolicy with
    | .refuse     => none
    | .truncate16 => some (rc.toNat % 0x10000)

/-- CVENC, rule R127: the frame carries the current K and RC, the successor goes to R_KEY and R_RC. -/
def cvencOp (p : Config.Params) (code : Nibble) (i : InputState) (r : ResultState) : ResultState :=
  if isCoverCode code.toNat = false then finish .unsupportedCommand r
  else
    match rollingField p i.argRc with
    | none    => finish .rangeError r
    | some rf =>
      finish .ok (setFv (putSuccessor i
        { putFrame (coverFrame p i.argKey code rf i.argAddr) r with
          rCs  := coverSum p i.argKey code rf i.argAddr
          rCmd := code }))

/-- The literal bytes around the body of a Cover frame (rule R130). -/
def coverFramed (i : InputState) : Bool :=
  i.slice 0 2 == coverFrameLead && i.inByte 16 == newline

/-- The fields CVDEC delivers, rule R130: the checksum of the body with its placeholder zeroed, and the digits' values. -/
def coverFields (i : InputState) (r : ResultState) : ResultState :=
  { r with
    rCs   := xcsum (withPlaceholder (i.slice 2 14))
    rKey  := BitVec.ofNat 4 (hexval (i.inByte 3))
    rCmd  := BitVec.ofNat 4 (hexval (i.inByte 4))
    rRc   := BitVec.ofNat 24 (hexnum (i.slice 6 4))
    rAddr := BitVec.ofNat 24 (hexnum (i.slice 10 6)) }

/-- CVDEC, rule R130: on a checksum mismatch the fields are still delivered. -/
def cvdecOp (p : Config.Params) (i : InputState) (r : ResultState) : ResultState :=
  if i.len ≠ 17 then finish .malformedFrame r
  else if coverFramed i = false then finish .malformedFrame r
  else if (i.slice 2 14).all ishex = false then finish .malformedFrame r
  else if i.inByte 2 ≠ p.coverLead then finish .badStartMarker r
  else if isCoverCode (hexval (i.inByte 4)) = false then finish .unsupportedCommand r
  else if (xcsum (withPlaceholder (i.slice 2 14))).toNat ≠ hexval (i.inByte 5) then
    finish .checksumMismatch (setFv (coverFields i r))
  else finish .ok (setFv (coverFields i r))

/-- XCS. -/
def execXcs (s : State) : Host.Outcome State Fault Refusal := .next (runOperation xcsOp s)

/-- CVCS. -/
def execCvcs (s : State) : Host.Outcome State Fault Refusal := .next (runOperation cvcsOp s)

/-- RCINC. -/
def execRcinc (s : State) : Host.Outcome State Fault Refusal := .next (runOperation rcincOp s)

/-- CVENC. -/
def execCvenc (code : Nibble) (s : State) : Host.Outcome State Fault Refusal :=
  .next (runOperation (cvencOp Config.hardware code) s)

/-- CVDEC. -/
def execCvdec (s : State) : Host.Outcome State Fault Refusal :=
  .next (runOperation (cvdecOp Config.hardware) s)

end Sys2Proof.Machine
end

