-- ==== Sys2Proof/Machine/Sensor.lean ====
section
/-! DEFINITION. 43_sensor.md: the CRC-8 engine and the Sensor frame unpacker. -/

namespace Sys2Proof.Machine

/-- One round of CRC8F, rule R150: bit 7 is tested, the register shifts left, and the polynomial is XORed in where the bit
was 1. -/
def crcBit (c : Byte) : Byte := if c.getLsbD 7 then (c <<< 1) ^^^ Config.crcPoly else c <<< 1

/-- A number of rounds of CRC8F. -/
def crcRounds : Nat → Byte → Byte
  | 0, c     => c
  | n + 1, c => crcRounds n (crcBit c)

/-- One byte of CRC8F, rule R150: the byte enters whole, then eight rounds. -/
def crcByte (c b : Byte) : Byte := crcRounds 8 (c ^^^ b)

/-- CRC8F, rule R150: no final XOR. -/
def crc8f (l : List Byte) : Byte := l.foldl crcByte Config.crcInit

/-- CRC8, rule R150: over raw bytes, not hex characters. -/
def crc8Op (i : InputState) (r : ResultState) : ResultState :=
  if Config.bufMax < i.len then finish .malformedFrame r
  else finish .ok (setFv { r with rCrc := crc8f i.inBytes })

/-- The four payload bytes of a Sensor frame, the hex pairs (3,4), (5,6), (7,8), (9,10) (rules R152, R160). -/
def sensorPayload (i : InputState) : List Byte :=
  [BitVec.ofNat 8 (hexbyte i 3), BitVec.ofNat 8 (hexbyte i 5),
   BitVec.ofNat 8 (hexbyte i 7), BitVec.ofNat 8 (hexbyte i 9)]

/-- The received CRC-8: the trailer at characters 11..12 (rules R152, R160). -/
def sensorTrailer (i : InputState) : Byte := BitVec.ofNat 8 (hexbyte i 11)

/-- D of rule R162: the decimal number of characters 6..8. -/
def sensorDecimal (i : InputState) : Nat :=
  100 * decval (i.inByte 6) + 10 * decval (i.inByte 7) + decval (i.inByte 8)

/-- The fields SNDEC delivers, stage 5 of rule R160: rules R161 to R165. -/
def sensorFields (p : Config.Params) (i : InputState) (r : ResultState) : ResultState :=
  let pair := hexbyte i 4
  let h := hexbyte i 9 &&& 0x7F
  let wb := weakFlag p.weakBatMode (hexval (i.inByte 9))
  let nb := newBatteryFlag pair
  { r with
    rDevId  := BitVec.ofNat 6 ((pair &&& 0x3F) >>> 2)
    rTemp   := BitVec.ofInt 16 ((sensorDecimal i : Int) - 400)
    rHum    := BitVec.ofNat 7 h
    rSFlags := sflagsOf wb nb (humidityValid h)
    rBatt   := batteryPercent wb nb }

/-- Stage 5 of SNDEC, rule R160: a non-decimal temperature digit is MalformedFrame and leaves CRC_OK, R_CRC and R_CRCRX as
stage 4 wrote them; a CRC mismatch is reported with the fields delivered (LOG_ONLY, rule R166). -/
def sndecStage5 (p : Config.Params) (i : InputState) (r : ResultState) : ResultState :=
  if (i.slice 6 3).all isdec = false then finish .malformedFrame r
  else if statusCrcOk r.status = false then finish .checksumMismatch (setFv (sensorFields p i r))
  else finish .ok (setFv (sensorFields p i r))

/-- Stage 4 of SNDEC, rule R160: the CRC is compared with the trailer. -/
def sndecStage4 (i : InputState) (r : ResultState) : ResultState :=
  setCrcOk (crc8f (sensorPayload i) == sensorTrailer i)
    { r with
      rCrc   := crc8f (sensorPayload i)
      rCrcRx := sensorTrailer i }

/-- SNDEC, rule R160. -/
def sndecOp (p : Config.Params) (i : InputState) (r : ResultState) : ResultState :=
  if i.len ≠ Config.sensorLen then finish .malformedFrame r
  else if i.inByte Config.sensorMarkerPos ≠ Config.sensorMarker then finish .badStartMarker r
  else if (i.slice 4 9).all ishex = false then finish .malformedFrame r
  else
    let checked := sndecStage4 i r
    if crc8f (sensorPayload i) ≠ sensorTrailer i ∧ p.crcPolicy = .reject then
      finish .checksumMismatch checked
    else sndecStage5 p i checked

/-- CRC8. -/
def execCrc8 (s : State) : Host.Outcome State Fault Refusal := .next (runOperation crc8Op s)

/-- SNDEC. -/
def execSndec (s : State) : Host.Outcome State Fault Refusal :=
  .next (runOperation (sndecOp Config.hardware) s)

end Sys2Proof.Machine
end

