-- ==== Sys2Proof/Machine/Switch.lean ====
section
/-! DEFINITION. 41_switch.md: the Switch frame packer and its verification inverse. -/

namespace Sys2Proof.Machine

/-- The 15 bytes of a Switch frame (rule R100). -/
def switchFrame (p : Config.Params) (a : SwitchAction) (symbols : List Byte) : List Byte :=
  switchLead ++ symbols ++ commandBits p a ++ [newline]

/-- SWENC, rule R101. -/
def swencOp (p : Config.Params) (a : SwitchAction) (i : InputState) (r : ResultState) : ResultState :=
  if i.len ≠ 10 then finish .invalidAddress r
  else if (i.slice 0 10).all isSwitchSymbol = false then finish .invalidAddress r
  else
    finish .ok (setFv
      { putFrame (switchFrame p a (i.slice 0 10)) r with
        rCmd := actionNibble a })

/-- The first three checks of SWDEC, rule R104: the literal bytes around the address and the commandbits. -/
def switchFramed (i : InputState) : Bool :=
  i.slice 0 2 == switchLead && i.inByte 14 == newline

/-- The action the commandbits stand for (rule R104); none where they are neither "FF" nor SWITCH_OFF_BITS. -/
def switchActionOf (p : Config.Params) (cb : List Byte) : Option SwitchAction :=
  if cb = commandBits p .on then some .on
  else if cb = commandBits p .off then some .off
  else none

/-- SWDEC, rule R104. -/
def swdecOp (p : Config.Params) (i : InputState) (r : ResultState) : ResultState :=
  if i.len ≠ 15 then finish .malformedFrame r
  else if switchFramed i = false then finish .malformedFrame r
  else if (i.slice 2 10).all isSwitchSymbol = false then finish .invalidAddress r
  else
    match switchActionOf p (i.slice 12 2) with
    | none   => finish .unsupportedCommand r
    | some a =>
      finish .ok (setFv
        { putFrame (i.slice 2 10) r with
          rCmd := actionNibble a })

/-- SWENC. -/
def execSwenc (a : SwitchAction) (s : State) : Host.Outcome State Fault Refusal :=
  .next (runOperation (swencOp Config.hardware a) s)

/-- SWDEC. -/
def execSwdec (s : State) : Host.Outcome State Fault Refusal :=
  .next (runOperation (swdecOp Config.hardware) s)

end Sys2Proof.Machine
end

