-- ==== Sys2Proof/Machine/Dispatch.lean ====
section
/-! DEFINITION. The dispatch of rule R90: one arm for each operation of the opcode table. -/

namespace Sys2Proof.Machine

def exec (i : Instr) (s : State) : Host.Outcome State Fault Refusal :=
  match i with
  | .nop => Sys2Proof.Machine.execNop s
  | .crc8 => Sys2Proof.Machine.execCrc8 s
  | .xcs => Sys2Proof.Machine.execXcs s
  | .cvcs => Sys2Proof.Machine.execCvcs s
  | .swenc a => Sys2Proof.Machine.execSwenc a s
  | .swdec => Sys2Proof.Machine.execSwdec s
  | .cvenc code => Sys2Proof.Machine.execCvenc code s
  | .cvdec => Sys2Proof.Machine.execCvdec s
  | .sndec => Sys2Proof.Machine.execSndec s
  | .rcinc => Sys2Proof.Machine.execRcinc s

end Sys2Proof.Machine
end

