-- ==== Sys2Proof/Machine/Port.lean ====
section
/-! DEFINITION. What a host access does (20_memory.md): the execution a write to CMD starts, the two byte accesses, the
accesses at platform addresses, and reset. -/

namespace Sys2Proof.Machine

/-- `Execute(w)` of rule R90, with CMD already holding w: the operation the word selects, or the illegal outcome. -/
def execute (w : Byte) (s : State) : Host.Outcome State Fault Refusal :=
  match decode w with
  | .ok i    => exec i s
  | .error _ => execIllegal s

/-- What follows an operation of the word w: its next state with the status it left added to the model's record
(rule R183, log entry 2). -/
def recordCommand (w : Byte) : Host.Outcome State Fault Refusal → Host.Outcome State Fault Refusal
  | .next t    => .next (t.record (.commandDone w t.result.status))
  | .fault f   => .fault f
  | .refused r => .refused r

/-- `HostWrite(off, v)` of rule R53: the byte is stored where it can be, and at CMD the operation then runs, as one
indivisible step (rule R54). -/
def hostWrite (off v : Byte) (s : State) : Host.Outcome State Fault Refusal :=
  if portMap off = .cmd then recordCommand v (execute v (s.store off v))
  else .next (s.store off v)

/-- `HostRead(off)` of rule R52 as an access: no side effect on the block, the answer goes to the model's record. -/
def readAccess (off : Byte) (s : State) : Host.Outcome State Fault Refusal :=
  .next (s.record (.readReply off (hostRead s off)))

/-- The platform address of an offset: PORT_BASE + off (rule R58). -/
def portAddress (base : Nat) (off : Byte) : Nat := base + off.toNat

/-- The offset at a platform address, if it is one of the 256 of the port (rules R51, R58). -/
def portOffset (base address : Nat) : Option Byte :=
  if base ≤ address ∧ address < base + 256 then some (BitVec.ofNat 8 (address - base)) else none

/-- One access, or reset, taking effect (rules R52, R53, R55, R58, R201). -/
def perform (e : HostEvent) (s : State) : Host.Outcome State Fault Refusal :=
  match e with
  | .read off             => readAccess off s
  | .write off v          => hostWrite off v s
  | .busRead address      =>
    match portOffset Config.hardware.portBase address with
    | some off => readAccess off s
    | none     => .refused (.outsidePort address)
  | .busWrite address v   =>
    match portOffset Config.hardware.portBase address with
    | some off => hostWrite off v s
    | none     => .refused (.outsidePort address)
  | .wideRead extra _     => .refused (.wideAccess (9 + extra))
  | .wideWrite extra _ _  => .refused (.wideAccess (9 + extra))
  | .reset                => .next (s.resetBlock.record .resetDone)

/-- Accesses taking effect one after another, stopping at the first that does not end in a next state (rule R60). -/
def performAll : List HostEvent → State → Host.Outcome State Fault Refusal
  | [], s      => .next s
  | e :: es, s =>
    match perform e s with
    | .next t    => performAll es t
    | .fault f   => .fault f
    | .refused r => .refused r

/-- The next access the host has issued takes effect. With none pending the block keeps every register (rule R195, log
entry 3). -/
def takeAccess (s : State) : Host.Outcome State Fault Refusal :=
  match s.pending with
  | []        => .next s
  | e :: rest => perform e { s with pending := rest }

end Sys2Proof.Machine
end

