-- ==== Sys2Proof/Machine/HostProgram.lean ====
section
/-! DEFINITION. The host-program notation of 30_encoding.md rules R80 and R81: the accesses each line stands for. -/

namespace Sys2Proof.Machine

/-- Writes of bytes to consecutive offsets. -/
def writesFrom (off : Nat) : List Byte → List HostEvent
  | []      => []
  | b :: bs => .write (BitVec.ofNat 8 off) b :: writesFrom (off + 1) bs

/-- The three writes of a 24-bit register at consecutive offsets, most significant byte first (rule R81). -/
def writes24 (off : Nat) (v : Word24) : List HostEvent :=
  writesFrom off [byteOf24 v 0, byteOf24 v 1, byteOf24 v 2]

/-- `RD src → t; WR dst, t` for consecutive offsets (rule R81, COMMIT). The datum t is what the read returns in the state
s: a read has no side effect and the writes of COMMIT change no result register (log entry 16). -/
def copies (s : State) (src dst : Nat) : Nat → List HostEvent
  | 0     => []
  | n + 1 =>
    .read (BitVec.ofNat 8 src) :: .write (BitVec.ofNat 8 dst) (hostRead s (BitVec.ofNat 8 src)) ::
      copies s (src + 1) (dst + 1) n

/-- Reads of n consecutive offsets. -/
def readsFrom (off : Nat) : Nat → List HostEvent
  | 0     => []
  | n + 1 => .read (BitVec.ofNat 8 off) :: readsFrom (off + 1) n

/-- The accesses of a line of a host program that starts in the state s (rules R80, R81); none for a line that is not well
formed. COMMIT and RDOUT depend on what their reads return. -/
def expand (s : State) (l : HostLine) : Option (List HostEvent) :=
  if l.wellFormed = false then none
  else some (match l with
    | .op i           => [.write 0x00 (encode i)]
    | .raw w          => [.write 0x00 w]
    | .wr off v       => [.write off v]
    | .rd off         => [.read off]
    | .ldbuf bs       => writesFrom 0x20 bs ++ [.write 0x02 (BitVec.ofNat 8 bs.length)]
    | .ldkey k        => [.write 0x04 k]
    | .ldrc v         => writes24 0x05 v
    | .ldaddr v       => writes24 0x08 v
    | .ldcover k rc a => [.write 0x04 k] ++ writes24 0x05 rc ++ writes24 0x08 a
    | .commit         => copies s 0x0C 0x04 1 ++ copies s 0x0D 0x05 3 ++ copies s 0x10 0x08 3
    | .rdout          => .read 0x03 :: readsFrom 0x40 (hostRead s 0x03).toNat)

/-- `CVENC <cmd>` by the command's name (rule R80). -/
def cvencNamed (c : CoverCommand) : HostLine := .op (.cvenc (coverCode c))

end Sys2Proof.Machine
end

