-- ==== Sys2Proof/Machine/Step.lean ====
section
/-! DEFINITION. The step of the machine, and the place where a command word is put so that the next step runs it. -/

namespace Sys2Proof.Machine

/-- One step: the oldest access the host has issued takes effect (rules R54, R60). -/
def step (s : State) : Host.Outcome State Fault Refusal := takeAccess s

/-- The state with a command word where the next step takes it. The block fetches nothing: its "instruction" is the datum
of a host write to CMD (rule R63), so the word becomes the oldest pending access, `WR 0x00, w` (log entry 1). Every command
word has 8 bits (rule R70). -/
def State.withFetchWord (s : State) (_nbits w : Nat) : State :=
  { s with pending := .write 0x00 (BitVec.ofNat 8 w) :: s.pending }

end Sys2Proof.Machine
end

