-- ==== Sys2Proof/Safety.lean ====
section
/-! DEFINITION. The terms claims about the machine are stated in: when an access completes, which registers and which
operands the columns of 30_encoding.md rule R74 name, what the result registers can hold, and what the record says. -/

namespace Sys2Proof.Machine

/-- The access or operation ends in a next state: no stop. -/
def completes (o : Host.Outcome State Fault Refusal) : Prop := ∃ t, o = .next t

/-- A number of steps, stopping at the first that does not end in a next state. -/
def runSteps : Nat → State → Host.Outcome State Fault Refusal
  | 0, s     => .next s
  | k + 1, s =>
    match step s with
    | .next t    => runSteps k t
    | .fault f   => .fault f
    | .refused r => .refused r

/-- The words rule R77 calls illegal, in its three groups. -/
def illegalByRule (w : Byte) : Prop :=
  0xA ≤ (opcOf w).toNat ∨
  (opcOf w ∈ ([0x0, 0x1, 0x2, 0x3, 0x5, 0x7, 0x8, 0x9] : List Nibble) ∧ modOf w ≠ 0) ∨
  (opcOf w = 0x4 ∧ 2 ≤ (modOf w).toNat)

/-- The status codes an operation can end with (rules R181, R185). -/
def raisedBy : Instr → List StatusCode
  | .nop     => [.ok]
  | .crc8    => [.malformedFrame, .ok]
  | .xcs     => [.malformedFrame, .ok]
  | .cvcs    => [.malformedFrame, .ok]
  | .swenc _ => [.invalidAddress, .ok]
  | .swdec   => [.malformedFrame, .invalidAddress, .unsupportedCommand, .ok]
  | .cvenc _ => [.unsupportedCommand, .rangeError, .ok]
  | .cvdec   => [.malformedFrame, .badStartMarker, .unsupportedCommand, .checksumMismatch, .ok]
  | .sndec   => [.malformedFrame, .badStartMarker, .checksumMismatch, .ok]
  | .rcinc   => [.ok]

/-- The operands an operation reads are the same in two input states: the reads column of rule R74, with the buffer read
below LEN only (rule R93). -/
def sameOperands (i : Instr) (a b : InputState) : Prop :=
  match i with
  | .nop     => True
  | .cvenc _ => a.argKey = b.argKey ∧ a.argRc = b.argRc ∧ a.argAddr = b.argAddr
  | .rcinc   => a.argKey = b.argKey ∧ a.argRc = b.argRc ∧ a.argAddr = b.argAddr
  | .crc8    => a.inLen = b.inLen ∧ ∀ k < a.len, a.inByte k = b.inByte k
  | .xcs     => a.inLen = b.inLen ∧ ∀ k < a.len, a.inByte k = b.inByte k
  | .cvcs    => a.inLen = b.inLen ∧ ∀ k < a.len, a.inByte k = b.inByte k
  | .swenc _ => a.inLen = b.inLen ∧ ∀ k < a.len, a.inByte k = b.inByte k
  | .swdec   => a.inLen = b.inLen ∧ ∀ k < a.len, a.inByte k = b.inByte k
  | .cvdec   => a.inLen = b.inLen ∧ ∀ k < a.len, a.inByte k = b.inByte k
  | .sndec   => a.inLen = b.inLen ∧ ∀ k < a.len, a.inByte k = b.inByte k

/-- No frame is delivered: OUT_LEN and OUT_BUF are 0. -/
def noFrame (r : ResultState) : Prop := r.outLen = 0 ∧ r.outBuf = Buffer.zero

/-- No Cover state is delivered: R_KEY, R_RC and R_ADDR are 0. -/
def noCoverState (r : ResultState) : Prop := r.rKey = 0 ∧ r.rRc = 0 ∧ r.rAddr = 0

/-- No CRC is delivered: R_CRC and R_CRCRX are 0. -/
def noCrc (r : ResultState) : Prop := r.rCrc = 0 ∧ r.rCrcRx = 0

/-- No reading is delivered: R_DEVID, R_TEMP, R_HUM, R_SFLAGS and R_BATT are 0. -/
def noReading (r : ResultState) : Prop :=
  r.rDevId = 0 ∧ r.rTemp = 0 ∧ r.rHum = 0 ∧ r.rSFlags = 0 ∧ r.rBatt = 0

/-- Every result register that the writes column of rule R74 does not give the operation is 0. -/
def othersZero (i : Instr) (r : ResultState) : Prop :=
  match i with
  | .nop     => noFrame r ∧ noCoverState r ∧ r.rCmd = 0 ∧ noCrc r ∧ r.rCs = 0 ∧ noReading r
  | .crc8    => noFrame r ∧ noCoverState r ∧ r.rCmd = 0 ∧ r.rCrcRx = 0 ∧ r.rCs = 0 ∧ noReading r
  | .xcs     => noFrame r ∧ noCoverState r ∧ r.rCmd = 0 ∧ noCrc r ∧ noReading r
  | .cvcs    => noFrame r ∧ noCoverState r ∧ r.rCmd = 0 ∧ noCrc r ∧ noReading r
  | .swenc _ => noCoverState r ∧ noCrc r ∧ r.rCs = 0 ∧ noReading r
  | .swdec   => noCoverState r ∧ noCrc r ∧ r.rCs = 0 ∧ noReading r
  | .cvenc _ => noCrc r ∧ noReading r
  | .cvdec   => noFrame r ∧ noCrc r ∧ noReading r
  | .sndec   => noFrame r ∧ noCoverState r ∧ r.rCmd = 0 ∧ r.rCs = 0
  | .rcinc   => noFrame r ∧ r.rCmd = 0 ∧ noCrc r ∧ r.rCs = 0 ∧ noReading r

/-- STATUS[7:6] are 0 and CODE is one the block writes: never ProtocolMismatch, PersistenceFailure, TransportFailure or a
reserved number (rules R24, R181). -/
def statusLegal (r : ResultState) : Prop :=
  r.status.getLsbD 7 = false ∧ r.status.getLsbD 6 = false ∧
  statusCode r.status ∈ ([0x0, 0x1, 0x3, 0x4, 0x5, 0x6, 0x9, 0xA, 0xF] : List Nibble)

/-- OUT_LEN is the length of a frame the block makes, and OUT_BUF reads 0 from there on (rule R42). -/
def outputShaped (r : ResultState) : Prop :=
  r.outLen ∈ ([0, 10, 15, 17] : List (BitVec 6)) ∧
  ∀ k : Fin 32, r.outLen.toNat ≤ k.val → r.outBuf[k] = 0

/-- The ranges of the command and the reading: rules R33, R36, R37 and R40, narrowed by rule R165 under
WEAK_BAT_MODE = LITERAL, the value of this hardware (log entry 6): WB is 0, so R_BATT is never the 10 that rule R40 allows. -/
def rangesHeld (r : ResultState) : Prop :=
  r.rCmd.toNat ≤ 10 ∧ r.rDevId.toNat ≤ 15 ∧ -400 ≤ r.rTemp.toInt ∧ r.rTemp.toInt ≤ 599 ∧
  r.rBatt ∈ ([0, 50, 100] : List Byte) ∧ flagWb r.rSFlags = false

/-- With FV = 0 no field output is delivered: no frame, no Cover state, no command, no checksum, no reading (rules R24,
R182). R_CRC and R_CRCRX may stand (rule R181, the record SNDEC leaves). -/
def fieldsValidOrZero (r : ResultState) : Prop :=
  statusFv r.status = false →
    noFrame r ∧ noCoverState r ∧ r.rCmd = 0 ∧ r.rCs = 0 ∧ noReading r

/-- CRC_OK = 1 says that the CRC equals the trailer (rule R24). -/
def crcVerdictTrue (r : ResultState) : Prop := statusCrcOk r.status = true → r.rCrc = r.rCrcRx

/-- What the result registers hold in every state the machine reaches, with WEAK_BAT_MODE = LITERAL (log entry 6). -/
def resultInv (s : State) : Prop :=
  statusLegal s.result ∧ outputShaped s.result ∧ rangesHeld s.result ∧ fieldsValidOrZero s.result ∧
  crcVerdictTrue s.result

/-- The last command since reset in a record, newest first: its word and the STATUS it left. -/
def lastCommand : List PortEvent → Option (Byte × Byte)
  | []                              => none
  | .commandDone w status :: _      => some (w, status)
  | .resetDone :: _                 => none
  | .readReply _ _ :: rest          => lastCommand rest

/-- CMD is the last word written since reset and STATUS what its operation left; with no command since reset they are 0x00
and NONE (rules R23, R24, R183). -/
def recordAgrees (s : State) : Prop :=
  match lastCommand s.history with
  | none             => s.input.cmd = 0x00 ∧ s.result.status = 0x0F
  | some (w, status) => s.input.cmd = w ∧ s.result.status = status

/-- The bits of a byte, bit 7 first. -/
def msbBits (b : Byte) : List Bool :=
  [b.getLsbD 7, b.getLsbD 6, b.getLsbD 5, b.getLsbD 4, b.getLsbD 3, b.getLsbD 2, b.getLsbD 1, b.getLsbD 0]

/-- A shift register of the polynomial that takes one message bit a round. -/
def crcSerial (c : Byte) (bit : Bool) : Byte :=
  if c.getLsbD 7 != bit then (c <<< 1) ^^^ Config.crcPoly else c <<< 1

end Sys2Proof.Machine
end

