-- ==== Sys2Proof/Certificates/Slice0/Obligations.lean ====
section
/-! DEFINITION. The statements for the provers, family by family. Each docstring names the rule or the section of spec/ the
statement formalises. `State` is any state, reached by a run or not, unless an invariant is a premise. -/

open Sys2Proof Sys2Proof.Machine

/-! ### Reset -/

/-- Rule R200: reset sets every register, whatever the registers held; it is not a command, so STATUS reads NONE. -/
def Obligations.ResetSetsEveryRegister : Prop :=
  (∀ off, hostRead State.reset off = if off = 0x01 then 0x0F else 0x00) ∧
  ∀ s, ∃ t, perform .reset s = .next t ∧ t.input = State.reset.input ∧ t.result = State.reset.result ∧
    ∀ off, hostRead t off = if off = 0x01 then 0x0F else 0x00

/-! ### The command word -/

/-- 30_encoding.md sections 2 and 5: words written out from the opcode map and the assembler's examples. -/
def Obligations.WordsOfTheSpecDecode : Prop :=
  decode 0x00 = .ok .nop ∧ decode 0x01 = .ok .crc8 ∧ decode 0x02 = .ok .xcs ∧ decode 0x03 = .ok .cvcs ∧
  decode 0x04 = .ok (.swenc .off) ∧ decode 0x14 = .ok (.swenc .on) ∧ decode 0x05 = .ok .swdec ∧
  decode 0x26 = .ok (.cvenc (coverCode .up)) ∧ decode 0xA6 = .ok (.cvenc (coverCode .disableSun)) ∧
  decode 0x06 = .ok (.cvenc 0) ∧ decode 0x07 = .ok .cvdec ∧ decode 0x08 = .ok .sndec ∧ decode 0x09 = .ok .rcinc

/-- Rule R79: the decoder on every command word, by its OPC and MOD. -/
def Obligations.DecoderFollowsItsTable : Prop :=
  ∀ m o : Nibble, (decode (m ++ o)).toOption =
    if o = 0x0 then (if m = 0 then some .nop else none)
    else if o = 0x1 then (if m = 0 then some .crc8 else none)
    else if o = 0x2 then (if m = 0 then some .xcs else none)
    else if o = 0x3 then (if m = 0 then some .cvcs else none)
    else if o = 0x4 then (if m.toNat ≤ 1 then some (.swenc (if m.getLsbD 0 then .on else .off)) else none)
    else if o = 0x5 then (if m = 0 then some .swdec else none)
    else if o = 0x6 then some (.cvenc m)
    else if o = 0x7 then (if m = 0 then some .cvdec else none)
    else if o = 0x8 then (if m = 0 then some .sndec else none)
    else if o = 0x9 then (if m = 0 then some .rcinc else none)
    else none

/-- 30_encoding.md sections 1 to 3: no bit of an encoding is dropped, in both directions. -/
def Obligations.DecodeAndEncodeAgree : Prop :=
  (∀ i : Instr, i.wellFormed = true → decode (encode i) = .ok i) ∧
  ∀ (w : Byte) (i : Instr), decode w = .ok i → encode i = w ∧ i.wellFormed = true

/-- 30_encoding.md section 2 and opcode_table.json: a word decodes exactly when it matches a row, it matches one row only,
and it is that row's instruction. -/
def Obligations.DecodedWordsMatchOneTableRow : Prop :=
  ∀ w : Byte,
    (∀ i, decode w = .ok i → matchingRows w = [i.mnemonic]) ∧
    (∀ e, decode w = .error e → matchingRows w = [])

/-- Rule R77: the words of its three groups, 96, 120 and 14 of them and 230 in all, are stored in CMD, clear the result
state and end with IllegalOp and FV = 0, and nothing else changes; every other word is an operation. -/
def Obligations.IllegalWordsReportIllegalOp : Prop :=
  (∀ (w : Byte) (s : State), illegalByRule w →
    ∃ t, hostWrite 0x00 w s = .next t ∧ t.input = { s.input with cmd := w } ∧
      t.result = { ResultState.cleared with status := 0x09 } ∧ t.pending = s.pending) ∧
  (∀ w : Byte, illegalByRule w ↔ ∃ e, decode w = .error e) ∧
  (List.range 256).countP (fun n => decide (0xA ≤ (opcOf (BitVec.ofNat 8 n)).toNat)) = 96 ∧
  (List.range 256).countP (fun n =>
    decide (opcOf (BitVec.ofNat 8 n) ∈ ([0x0, 0x1, 0x2, 0x3, 0x5, 0x7, 0x8, 0x9] : List Nibble)) &&
    decide (modOf (BitVec.ofNat 8 n) ≠ 0)) = 120 ∧
  (List.range 256).countP (fun n =>
    decide (opcOf (BitVec.ofNat 8 n) = 0x4) && decide (2 ≤ (modOf (BitVec.ofNat 8 n)).toNat)) = 14 ∧
  (List.range 256).countP (fun n => (decode (BitVec.ofNat 8 n)).toOption.isNone) = 230

/-! ### The port -/

/-- 20_memory.md sections 2 and 5 and 40_common.md section 1: a write of a legal word to CMD runs the operation it decodes
to, on the state with the word in CMD, and the step adds the operation's STATUS to the model's record. The pending accesses
(log entry 1) and the record (log entry 2) are the model's choice. -/
def Obligations.StepRunsTheDecodedInstruction : Prop :=
  ∀ (s : State) (w : Byte) (rest : List HostEvent) (i : Instr),
    s.pending = .write 0x00 w :: rest → decode w = .ok i → i.wellFormed = true →
    ∃ t, exec i { s with pending := rest, input := { s.input with cmd := w } } = .next t ∧
      step s = .next { t with history := .commandDone w t.result.status :: t.history }

/-- Rule R53: the four things a write does. At CMD it stores and executes; at a read/write offset it stores the used bits
and changes no other byte; at a read-only or reserved offset it changes nothing. -/
def Obligations.HostWriteDoesOneOfFourThings : Prop :=
  ∀ (off v : Byte) (s : State),
    (off = 0x00 →
      ∃ t u, execute v { s with input := { s.input with cmd := v } } = .next t ∧ hostWrite off v s = .next u ∧
        u.input = t.input ∧ u.result = t.result ∧ u.pending = s.pending) ∧
    (off = 0x02 ∨ (0x04 ≤ off.toNat ∧ off.toNat ≤ 0x0A) ∨ (0x20 ≤ off.toNat ∧ off.toNat ≤ 0x3F) →
      ∃ t, hostWrite off v s = .next t ∧
        hostRead t off = (if off = 0x02 then v &&& 0x3F else if off = 0x04 then v &&& 0x0F else v) ∧
        (∀ o, o ≠ off → hostRead t o = hostRead s o) ∧
        t.result = s.result ∧ t.pending = s.pending ∧ t.history = s.history) ∧
    (off = 0x01 ∨ off = 0x03 ∨ (0x0B ≤ off.toNat ∧ off.toNat ≤ 0x1F) ∨ 0x40 ≤ off.toNat →
      hostWrite off v s = .next s)

/-- 20_memory.md section 2: a read returns the current value of the byte, reserved bits and reserved offsets as 0, and has
no side effect; CMD returns the last value written to it. That the answer goes to a record of the model is the model's choice
(log entry 2). -/
def Obligations.HostReadReturnsTheRegister : Prop :=
  ∀ s : State,
    (∀ off, perform (.read off) s = .next { s with history := .readReply off (hostRead s off) :: s.history }) ∧
    (∀ off : Byte, off = 0x0B ∨ (0x1D ≤ off.toNat ∧ off.toNat ≤ 0x1F) ∨ 0x60 ≤ off.toNat → hostRead s off = 0x00) ∧
    (∀ w t, hostWrite 0x00 w s = .next t → hostRead t 0x00 = w) ∧
    hostRead s 0x00 = s.input.cmd ∧ hostRead s 0x01 = s.result.status ∧
    hostRead s 0x02 = (0 : BitVec 2) ++ s.input.inLen ∧ hostRead s 0x03 = (0 : BitVec 2) ++ s.result.outLen ∧
    hostRead s 0x04 = (0 : Nibble) ++ s.input.argKey ∧ hostRead s 0x0C = (0 : Nibble) ++ s.result.rKey ∧
    hostRead s 0x13 = (0 : Nibble) ++ s.result.rCmd ∧ hostRead s 0x14 = s.result.rCrc ∧
    hostRead s 0x15 = s.result.rCrcRx ∧ hostRead s 0x16 = (0 : Nibble) ++ s.result.rCs ∧
    hostRead s 0x17 = (0 : BitVec 2) ++ s.result.rDevId ∧ hostRead s 0x1A = (0 : BitVec 1) ++ s.result.rHum ∧
    hostRead s 0x1B = (0 : BitVec 5) ++ s.result.rSFlags ∧ hostRead s 0x1C = s.result.rBatt ∧
    (∀ k : Fin 32, hostRead s (0x20 + BitVec.ofNat 8 k.val) = s.input.inBuf[k]) ∧
    (∀ k : Fin 32, hostRead s (0x40 + BitVec.ofNat 8 k.val) = s.result.outBuf[k]) ∧
    (hostRead s 0x05 ++ hostRead s 0x06 ++ hostRead s 0x07 = s.input.argRc) ∧
    (hostRead s 0x08 ++ hostRead s 0x09 ++ hostRead s 0x0A = s.input.argAddr) ∧
    (hostRead s 0x0D ++ hostRead s 0x0E ++ hostRead s 0x0F = s.result.rRc) ∧
    (hostRead s 0x10 ++ hostRead s 0x11 ++ hostRead s 0x12 = s.result.rAddr) ∧
    (hostRead s 0x18 ++ hostRead s 0x19 = s.result.rTemp)

/-- 20_memory.md section 3: no read changes a byte of the port; a write done twice leaves what it leaves done once, also at
CMD, where a second CVENC or RCINC does not advance the rolling code twice, because no operation stores its successor as
input. -/
def Obligations.AccessesAreIdempotent : Prop :=
  (∀ off s t, perform (.read off) s = .next t → t.input = s.input ∧ t.result = s.result) ∧
  (∀ off v s t u, hostWrite off v s = .next t → hostWrite off v t = .next u →
    u.input = t.input ∧ u.result = t.result) ∧
  (∀ w s t, hostWrite 0x00 w s = .next t →
    t.input.argKey = s.input.argKey ∧ t.input.argRc = s.input.argRc ∧ t.input.argAddr = s.input.argAddr)

/-- Rule R55: an access wider than 8 bits is no well-formed host action, and the model refuses it by name. -/
def Obligations.WideAccessIsRefusedByName : Prop :=
  ∀ (extra : Nat) (off : Byte) (v : Nat) (s : State),
    (HostEvent.wideRead extra off).wellFormed = false ∧ (HostEvent.wideWrite extra off v).wellFormed = false ∧
    perform (.wideRead extra off) s = .refused (.wideAccess (9 + extra)) ∧
    perform (.wideWrite extra off v) s = .refused (.wideAccess (9 + extra))

/-- 20_memory.md section 4: the offsets are relative to PORT_BASE, whatever its value. That an address outside the port is
refused is the model's own choice (log entry 7). -/
def Obligations.PlatformAddressReachesItsOffset : Prop :=
  (∀ off v s,
    perform (.busRead (Config.portBase + off.toNat)) s = perform (.read off) s ∧
    perform (.busWrite (Config.portBase + off.toNat) v) s = perform (.write off v) s) ∧
  ∀ address v s, address < Config.portBase ∨ Config.portBase + 256 ≤ address →
    perform (.busRead address) s = .refused (.outsidePort address) ∧
    perform (.busWrite address v) s = .refused (.outsidePort address)

/-- 20_memory.md section 5: the pending accesses take effect one a step, in the order issued, and none depends on those that
come after it. The list of pending accesses is the model's choice (log entry 1). -/
def Obligations.AccessesTakeEffectInIssueOrder : Prop :=
  ∀ (es rest : List HostEvent) (s : State),
    runSteps es.length { s with pending := es ++ rest } = performAll es { s with pending := rest }

/-- Rule R180: every operation and every write of a command word ends with a status code in a next state; no write to any
offset is refused. -/
def Obligations.NoOperationEverStops : Prop :=
  (∀ i s, completes (exec i s)) ∧ (∀ w s, completes (execute w s)) ∧
  (∀ off v s, completes (hostWrite off v s)) ∧
  ∀ w s t, hostWrite 0x00 w s = .next t →
    ∃ c : StatusCode, statusCode t.result.status = codeNibble c

/-! ### What every operation does -/

/-- Rule R96: no operation writes the input state, and nothing but a host write or reset changes a register of it; the CMD
write itself changes CMD alone. -/
def Obligations.OperationsLeaveTheInputState : Prop :=
  (∀ i s t, exec i s = .next t → t.input = s.input ∧ t.pending = s.pending ∧ t.history = s.history) ∧
  (∀ w s t, hostWrite 0x00 w s = .next t → t.input = { s.input with cmd := w }) ∧
  (∀ e s t, perform e s = .next t → t.input ≠ s.input →
    e = .reset ∨ (∃ off v, e = .write off v) ∨ (∃ a v, e = .busWrite a v)) ∧
  ∀ i s t off, exec i s = .next t → accessOf (portMap off) ≠ .readOnly → hostRead t off = hostRead s off

/-- Rule R91: the result state is zeroed first, so nothing of it survives into an operation's results, and the input state
is not touched. -/
def Obligations.NoResultSurvivesAnOperation : Prop :=
  (∀ r, clearResults r =
    { status := 0x00, outLen := 0, rKey := 0, rRc := 0, rAddr := 0, rCmd := 0, rCrc := 0, rCrcRx := 0, rCs := 0,
      rDevId := 0, rTemp := 0, rHum := 0, rSFlags := 0, rBatt := 0, outBuf := Vector.replicate 32 0x00 }) ∧
  (∀ w s r t t', execute w s = .next t → execute w { s with result := r } = .next t' → t'.result = t.result) ∧
  (∀ w s t, execute w s = .next t → t.input = s.input) ∧
  ∀ i s t, exec i s = .next t → othersZero i t.result

/-- 30_encoding.md section 3, the reads column: an operation's results depend on the operands it lists alone, and of IN_BUF
on the bytes below LEN. -/
def Obligations.ResultsDependOnListedOperandsOnly : Prop :=
  ∀ (i : Instr) (s s' t t' : State), sameOperands i s.input s'.input →
    exec i s = .next t → exec i s' = .next t' → t'.result = t.result

/-- 40_common.md section 1: `finish` writes CODE and nothing else; FV and CRC_OK keep their values. -/
def Obligations.FinishWritesTheCodeAlone : Prop :=
  ∀ (c : StatusCode) (r : ResultState),
    statusCode (finish c r).status = codeNibble c ∧
    statusFv (finish c r).status = statusFv r.status ∧
    statusCrcOk (finish c r).status = statusCrcOk r.status ∧
    { finish c r with status := r.status } = r

/-- 60_exceptions.md sections 1 and 3: the codes each operation can end with; the host's codes are never among them. -/
def Obligations.OperationsRaiseTheirOwnCodes : Prop :=
  ∀ i s t, exec i s = .next t →
    statusCode t.result.status ∈ (raisedBy i).map codeNibble ∧
    statusCode t.result.status ∉ ([0x2, 0x7, 0x8, 0x9, 0xB, 0xC, 0xD, 0xE, 0xF] : List Nibble)

/-- Rule R95: NOP clears the result state, and no other command word leaves it all 0. -/
def Obligations.NopClearsTheResults : Prop :=
  decode 0x00 = .ok .nop ∧
  (∀ s, exec .nop s = .next { s with result := ResultState.cleared }) ∧
  ∀ w s t, hostWrite 0x00 w s = .next t → (t.result = ResultState.cleared ↔ w = 0x00)

/-! ### CRC-8 -/

/-- Rule R150: CRC8 over IN_BUF[0..LEN-1], its function byte by byte, its length error and its corner cases. -/
def Obligations.Crc8ComputesTheCrc : Prop :=
  decode 0x01 = .ok .crc8 ∧
  (∀ s : State, s.input.len ≤ 32 →
    exec .crc8 s = .next { s with result :=
      { ResultState.cleared with status := 0x10, rCrc := crc8f (s.input.slice 0 s.input.len) } }) ∧
  (∀ s : State, 32 < s.input.len →
    exec .crc8 s = .next { s with result := { ResultState.cleared with status := 0x04 } }) ∧
  crc8f [] = 0x00 ∧
  (∀ l b, crc8f (l ++ [b]) =
    (fun c : Byte => if c.getLsbD 7 then (c <<< 1) ^^^ 0x31 else c <<< 1)^[8] (crc8f l ^^^ b)) ∧
  crc8f [0x00] = 0x00 ∧ crc8f [0x01] = 0x31 ∧ crc8f [0x80] = 0x7A ∧ crc8f [0xFF] = 0xAC ∧
  crc8f [0x31, 0x32, 0x33, 0x34, 0x35, 0x36, 0x37, 0x38, 0x39] = 0xA2 ∧
  crc8f [0x99, 0xE6, 0x28, 0x2E] = 0xC7

/-- 43_sensor.md section 1, "MSB-first": XORing each byte in whole and shifting eight times is the same as shifting the
message through the register one bit at a time, bit 7 of each byte first. -/
def Obligations.CrcIsTheBitSerialRegister : Prop :=
  ∀ l : List Byte, crc8f l = (l.flatMap msbBits).foldl crcSerial 0x00

/-- 43_sensor.md section 1, its laws: linear over XOR for equal lengths, zero residue, leading zeros without effect; and for
a Sensor frame the CRC over the five bytes at characters 3..12 is 0 exactly when the trailer matches. -/
def Obligations.CrcLaws : Prop :=
  (∀ x y : List Byte, x.length = y.length →
    crc8f (List.zipWith (· ^^^ ·) x y) = crc8f x ^^^ crc8f y) ∧
  (∀ b : List Byte, crc8f (b ++ [crc8f b]) = 0x00) ∧
  (∀ b : List Byte, crc8f (0x00 :: b) = crc8f b) ∧
  ∀ i : InputState,
    crc8f ((sensorPayload i) ++ [sensorTrailer i]) = 0x00 ↔ crc8f (sensorPayload i) = sensorTrailer i

/-! ### The XOR-nibble checksum -/

/-- 42_cover.md section 1: the formula, its reading as the XOR of both nibbles of every byte, and the empty sum. -/
def Obligations.XcsumXorsBothNibbles : Prop :=
  (∀ l : List Byte, (xcsum l).setWidth 8 = (l.foldl (fun (acc b : Byte) => acc ^^^ b ^^^ (b >>> 4)) (0 : Byte)) &&& 0x0F) ∧
  (∀ l : List Byte, xcsum l = l.foldl (fun (acc : Nibble) (b : Byte) => acc ^^^ (b.extractLsb' 0 4 ^^^ b.extractLsb' 4 4)) (0 : Nibble)) ∧
  xcsum [] = 0

/-- Rule R121: XCS over IN_BUF[0..LEN-1], its length error and its corner cases. -/
def Obligations.XcsComputesTheChecksum : Prop :=
  decode 0x02 = .ok .xcs ∧
  (∀ s : State, s.input.len ≤ 32 →
    exec .xcs s = .next { s with result :=
      { ResultState.cleared with status := 0x10, rCs := xcsum (s.input.slice 0 s.input.len) } }) ∧
  (∀ s : State, 32 < s.input.len →
    exec .xcs s = .next { s with result := { ResultState.cleared with status := 0x04 } }) ∧
  xcsum [] = 0 ∧
  (∀ l b, b.extractLsb' 0 4 = b.extractLsb' 4 4 → xcsum (b :: l) = xcsum l) ∧
  (∀ l b, xcsum (b :: b :: l) = xcsum l) ∧
  (∀ l l' : List Byte, l.Perm l' → xcsum l = xcsum l') ∧
  xcsum [0x31, 0x32, 0x33, 0x34, 0x35, 0x36, 0x37, 0x38, 0x39] = 0x2

/-- 42_cover.md section 1, its table: what each character of a Cover frame contributes. -/
def Obligations.CharacterContributions : Prop :=
  ((List.range 16).map fun n => xcsum [hexchar n]) =
    [0x3, 0x2, 0x1, 0x0, 0x7, 0x6, 0x5, 0x4, 0xB, 0xA, 0x5, 0x6, 0x7, 0x0, 0x1, 0x2] ∧
  (([0x61, 0x62, 0x63, 0x64, 0x65, 0x66] : List Byte).map fun c => xcsum [c]) =
    [0x7, 0x4, 0x5, 0x2, 0x3, 0x0] ∧
  (∀ n < 10, xcsum [hexchar n] = BitVec.ofNat 4 n ^^^ 3) ∧
  (∀ n < 16, 10 ≤ n → xcsum [hexchar n] = BitVec.ofNat 4 (n - 9) ^^^ 4)

/-- Rule R123: CVCS sums the 14-byte body with '0' at index 3, whatever stands there; its length error; its examples. -/
def Obligations.CvcsSumsTheZeroedBody : Prop :=
  decode 0x03 = .ok .cvcs ∧
  (∀ s : State, s.input.len = 14 →
    exec .cvcs s = .next { s with result :=
      { ResultState.cleared with
        status := 0x10
        rCs := xcsum (s.input.slice 0 3 ++ [0x30] ++ s.input.slice 4 10) } }) ∧
  (∀ s : State, s.input.len ≠ 14 →
    exec .cvcs s = .next { s with result := { ResultState.cleared with status := 0x04 } }) ∧
  xcsum (withPlaceholder [0x41, 0x37, 0x32, 0x32, 0x30, 0x30, 0x34, 0x32, 0x31, 0x32, 0x33, 0x34, 0x35, 0x36]) = 0x2 ∧
  xcsum (withPlaceholder [0x41, 0x37, 0x32, 0x46, 0x30, 0x30, 0x34, 0x32, 0x31, 0x32, 0x33, 0x34, 0x35, 0x36]) = 0x2

/-- 42_cover.md section 4, idempotence: the byte at the checksum's place never changes CVCS's result, and CVDEC of a frame
that CVENC produced reports OK with R_CS equal to the frame's checksum digit. -/
def Obligations.ChecksumIsIdempotent : Prop :=
  (∀ (s s' t t' : State), s.input.len = 14 → s'.input.len = 14 →
    (∀ k < 14, k ≠ 3 → s'.input.inByte k = s.input.inByte k) →
    exec .cvcs s = .next t → exec .cvcs s' = .next t' → t'.result.rCs = t.result.rCs) ∧
  (∀ (code : Nibble) (s s' t t' : State), exec (.cvenc code) s = .next t → t.result.outLen = 17 →
    s'.input.inLen = 17 → (∀ k : Fin 32, k.val < 17 → s'.input.inBuf[k] = t.result.outBuf[k]) →
    exec .cvdec s' = .next t' →
    statusCode t'.result.status = codeNibble .ok ∧
    t'.result.rCs.toNat = hexval (t.result.outBuf[5]))

/-! ### The rolling code -/

/-- Rule R125: RCINC always reports OK and delivers the successor of (K, RC) and the address, with its corner cases. -/
def Obligations.RcincDeliversTheSuccessor : Prop :=
  decode 0x09 = .ok .rcinc ∧
  (∀ s : State, exec .rcinc s = .next { s with result :=
    { ResultState.cleared with
      status := 0x10
      rKey   := BitVec.ofNat 4 ((s.input.argKey.toNat + 1) % 16)
      rRc    := BitVec.ofNat 24 ((s.input.argRc.toNat + 1) % 2 ^ 24)
      rAddr  := s.input.argAddr } }) ∧
  ∀ s t : State, exec .rcinc s = .next t →
    (s.input.argRc = 0xFFFFFF → t.result.rRc = 0x000000) ∧
    (s.input.argKey = 0xF → t.result.rKey = 0x0) ∧
    (s.input.argRc = 0x00FFFF → t.result.rRc = 0x010000) ∧
    (s.input.argKey = 7 ∧ s.input.argRc = 0x000042 ∧ s.input.argAddr = 0x123456 →
      t.result.rKey = 8 ∧ t.result.rRc = 0x000043 ∧ t.result.rAddr = 0x123456)

/-- 42_cover.md section 3: the wraparound laws of Succ. -/
def Obligations.SuccessorWrapsAround : Prop :=
  ∀ (k : Nibble) (rc : Word24),
    (fun x : Nibble × Word24 => coverSucc x.1 x.2)^[0x1000000] (k, rc) = (k, rc) ∧
    ((fun x : Nibble × Word24 => coverSucc x.1 x.2)^[0x10] (k, rc)).1 = k ∧
    (∀ n, ((fun x : Nibble × Word24 => coverSucc x.1 x.2)^[n] (k, rc)).2.toNat = (rc.toNat + n) % 2 ^ 24) ∧
    ∀ m n, m < 2 ^ 24 → n < 2 ^ 24 → m ≠ n →
      ((fun x : Nibble × Word24 => coverSucc x.1 x.2)^[m] (k, rc)).2 ≠
      ((fun x : Nibble × Word24 => coverSucc x.1 x.2)^[n] (k, rc)).2

/-! ### Cover frames -/

/-- 42_cover.md section 3: for a command code 1..10 and a rolling code that fits, CVENC delivers the 17-byte frame of the
current K and RC, its checksum, the command and the successor state. The lead 'A' is this hardware's COVER_LEAD (00_scope.md
section 3, log entry 6). -/
def Obligations.CvencPacksTheFrame : Prop :=
  ∀ (code : Nibble) (s : State), 1 ≤ code.toNat → code.toNat ≤ 10 → s.input.argRc.toNat ≤ 0xFFFF →
    ∃ cs : Nibble,
      cs = xcsum ([0x41, hexchar s.input.argKey.toNat, hexchar code.toNat, 0x30] ++
        hexstr 4 s.input.argRc.toNat ++ hexstr 6 s.input.argAddr.toNat) ∧
      exec (.cvenc code) s = .next { s with result :=
        { ResultState.cleared with
          status := 0x10
          outLen := 17
          outBuf := writeBytes Buffer.zero 0
            ([0x59, 0x73, 0x41, hexchar s.input.argKey.toNat, hexchar code.toNat, hexchar cs.toNat] ++
              hexstr 4 s.input.argRc.toNat ++ hexstr 6 s.input.argAddr.toNat ++ [0x0A])
          rKey   := s.input.argKey + 1
          rRc    := s.input.argRc + 1
          rAddr  := s.input.argAddr
          rCmd   := code
          rCs    := cs } }

/-- 42_cover.md section 3 and 60_exceptions.md section 1: a command CVENC turns away leaves its status code and nothing
else, so no successor state; UnsupportedCommand is checked before RangeError, which this hardware's RC_FIELD_POLICY = REFUSE
raises (00_scope.md section 3, log entry 6). -/
def Obligations.CvencFailureDeliversNothing : Prop :=
  ∀ (code : Nibble) (s : State),
    (code = 0 ∨ 11 ≤ code.toNat →
      exec (.cvenc code) s = .next { s with result := { ResultState.cleared with status := 0x03 } }) ∧
    (1 ≤ code.toNat → code.toNat ≤ 10 → 0xFFFF < s.input.argRc.toNat →
      exec (.cvenc code) s = .next { s with result := { ResultState.cleared with status := 0x0A } })

/-- 42_cover.md section 3: the rolling-code field under both policies. This hardware refuses. The successor is computed on
all 24 bits; RCINC takes no parameter (its meaning is that of `RcincDeliversTheSuccessor` under both). -/
def Obligations.RollingCodeFieldPolicies : Prop :=
  Config.hardware.rcFieldPolicy = .refuse ∧
  ∀ (p : Config.Params) (code : Nibble) (i : InputState), 1 ≤ code.toNat → code.toNat ≤ 10 →
    (0xFFFF < i.argRc.toNat → p.rcFieldPolicy = .refuse →
      cvencOp p code i ResultState.cleared = { ResultState.cleared with status := 0x0A }) ∧
    (p.rcFieldPolicy = .truncate16 ∨ i.argRc.toNat ≤ 0xFFFF →
      statusCode (cvencOp p code i ResultState.cleared).status = codeNibble .ok ∧
      ((cvencOp p code i ResultState.cleared).frame.drop 6).take 4 = hexstr 4 (i.argRc.toNat % 0x10000) ∧
      (cvencOp p code i ResultState.cleared).rRc = i.argRc + 1 ∧
      (cvencOp p code i ResultState.cleared).rKey = i.argKey + 1)

/-- 42_cover.md section 4, round trip: CVDEC of a frame CVENC produced reports OK and gives back K, the command, RC and the
address, under every parameter set whose lead is a hex digit; under TRUNCATE16 a rolling code above 0xFFFF comes back as its
low 16 bits. -/
def Obligations.CoverRoundTrip : Prop :=
  ∀ (p : Config.Params) (code : Nibble) (i j : InputState) (r : ResultState), p.wellFormed = true →
    cvencOp p code i ResultState.cleared = r → statusCode r.status = codeNibble .ok →
    j.inLen = r.outLen → (∀ k : Fin 32, k.val < 17 → j.inBuf[k] = r.outBuf[k]) →
    cvdecOp p j ResultState.cleared =
      { ResultState.cleared with
        status := 0x10
        rKey   := i.argKey
        rCmd   := code
        rRc    := BitVec.ofNat 24 (i.argRc.toNat % 0x10000)
        rAddr  := i.argAddr
        rCs    := r.rCs }

/-- 42_cover.md section 4: on a framed 17-byte input of hex digits with lead 'A' and a command digit 1..10, CVDEC delivers
the fields, and reports OK or ChecksumMismatch by the checksum digit. The lead 'A' is this hardware's COVER_LEAD (00_scope.md
section 3, log entry 6). -/
def Obligations.CvdecDeliversTheFields : Prop :=
  ∀ s : State, s.input.len = 17 →
    s.input.inByte 0 = 0x59 → s.input.inByte 1 = 0x73 → s.input.inByte 16 = 0x0A →
    (∀ k, 2 ≤ k → k ≤ 15 → ishex (s.input.inByte k) = true) → s.input.inByte 2 = 0x41 →
    1 ≤ hexval (s.input.inByte 4) → hexval (s.input.inByte 4) ≤ 10 →
    ∃ cs : Nibble, cs = xcsum (s.input.slice 2 3 ++ [0x30] ++ s.input.slice 6 10) ∧
      exec .cvdec s = .next { s with result :=
        { ResultState.cleared with
          status := if cs.toNat = hexval (s.input.inByte 5) then 0x10 else 0x16
          rCs    := cs
          rKey   := BitVec.ofNat 4 (hexval (s.input.inByte 3))
          rCmd   := BitVec.ofNat 4 (hexval (s.input.inByte 4))
          rRc    := BitVec.ofNat 24 (16 ^ 3 * hexval (s.input.inByte 6) + 16 ^ 2 * hexval (s.input.inByte 7) +
            16 * hexval (s.input.inByte 8) + hexval (s.input.inByte 9))
          rAddr  := BitVec.ofNat 24 (16 ^ 5 * hexval (s.input.inByte 10) + 16 ^ 4 * hexval (s.input.inByte 11) +
            16 ^ 3 * hexval (s.input.inByte 12) + 16 ^ 2 * hexval (s.input.inByte 13) +
            16 * hexval (s.input.inByte 14) + hexval (s.input.inByte 15)) } }

/-- 42_cover.md section 4 and 60_exceptions.md section 3: the order of CVDEC's checks; a failed one before the checksum
leaves its status code and nothing else. The lead 'A' is this hardware's COVER_LEAD (00_scope.md section 3, log entry 6). -/
def Obligations.CvdecChecksInOrder : Prop :=
  ∀ s : State,
    let framed := s.input.len = 17 ∧ s.input.inByte 0 = 0x59 ∧ s.input.inByte 1 = 0x73 ∧ s.input.inByte 16 = 0x0A ∧
      ∀ k, 2 ≤ k → k ≤ 15 → ishex (s.input.inByte k) = true
    (¬ framed → exec .cvdec s = .next { s with result := { ResultState.cleared with status := 0x04 } }) ∧
    (framed → s.input.inByte 2 ≠ 0x41 →
      exec .cvdec s = .next { s with result := { ResultState.cleared with status := 0x05 } }) ∧
    (framed → s.input.inByte 2 = 0x41 → hexval (s.input.inByte 4) = 0 ∨ 11 ≤ hexval (s.input.inByte 4) →
      exec .cvdec s = .next { s with result := { ResultState.cleared with status := 0x03 } })

/-! ### Switch frames -/

/-- Rule R101: SWENC packs ten symbols, each exactly 0x30 or 0x46, into the 15-byte frame, with "FF" for ON and
SWITCH_OFF_BITS for OFF; any other length or symbol is InvalidAddress with no frame. -/
def Obligations.SwencPacksTheFrame : Prop :=
  decode 0x04 = .ok (.swenc .off) ∧ decode 0x14 = .ok (.swenc .on) ∧
  ∀ (a : SwitchAction) (s : State),
    (s.input.len = 10 → (∀ k < 10, s.input.inByte k = 0x30 ∨ s.input.inByte k = 0x46) →
      exec (.swenc a) s = .next { s with result :=
        { ResultState.cleared with
          status := 0x10
          outLen := 15
          outBuf := writeBytes Buffer.zero 0
            ([0x69, 0x73] ++ s.input.slice 0 10 ++
              (match a with
                | .on  => [0x46, 0x46]
                | .off => match Config.switchOffBits with
                  | .zeroF => [0x30, 0x46]
                  | .fZero => [0x46, 0x30]) ++ [0x0A])
          rCmd   := match a with
            | .on  => 1
            | .off => 0 } }) ∧
    (s.input.len ≠ 10 ∨ (∃ k < 10, s.input.inByte k ≠ 0x30 ∧ s.input.inByte k ≠ 0x46) →
      exec (.swenc a) s = .next { s with result := { ResultState.cleared with status := 0x01 } })

/-- 41_switch.md section 2: SWDEC of a framed 15-byte input whose address symbols are valid and whose commandbits are "FF"
or SWITCH_OFF_BITS delivers the ten symbols and the action. -/
def Obligations.SwdecDeliversTheAddress : Prop :=
  ∀ (a : SwitchAction) (s : State), s.input.len = 15 →
    s.input.inByte 0 = 0x69 → s.input.inByte 1 = 0x73 → s.input.inByte 14 = 0x0A →
    (∀ k, 2 ≤ k → k ≤ 11 → s.input.inByte k = 0x30 ∨ s.input.inByte k = 0x46) →
    s.input.slice 12 2 = commandBits Config.hardware a →
    exec .swdec s = .next { s with result :=
      { ResultState.cleared with
        status := 0x10
        outLen := 10
        outBuf := writeBytes Buffer.zero 0 (s.input.slice 2 10)
        rCmd   := match a with
          | .on  => 1
          | .off => 0 } }

/-- 41_switch.md section 2 and 60_exceptions.md section 3: the order of SWDEC's checks under every parameter set, and that
"00" is unsupported under both values of SWITCH_OFF_BITS and each value's bits are unsupported under the other. -/
def Obligations.SwdecChecksInOrder : Prop :=
  (∀ (p : Config.Params) (i : InputState),
    let framed := i.len = 15 ∧ i.inByte 0 = 0x69 ∧ i.inByte 1 = 0x73 ∧ i.inByte 14 = 0x0A
    let valid := ∀ k, 2 ≤ k → k ≤ 11 → i.inByte k = 0x30 ∨ i.inByte k = 0x46
    (¬ framed → swdecOp p i ResultState.cleared = { ResultState.cleared with status := 0x04 }) ∧
    (framed → ¬ valid → swdecOp p i ResultState.cleared = { ResultState.cleared with status := 0x01 }) ∧
    (framed → valid → i.slice 12 2 ≠ [0x46, 0x46] → i.slice 12 2 ≠ offBits p.switchOffBits →
      swdecOp p i ResultState.cleared = { ResultState.cleared with status := 0x03 })) ∧
  (∀ o, ([0x30, 0x30] : List Byte) ≠ offBits o) ∧ offBits .zeroF ≠ offBits .fZero ∧
  ∀ s t, exec .swdec s = .next t → t.result = swdecOp Config.hardware s.input ResultState.cleared

/-- 41_switch.md section 2, the round trip: SWDEC of a frame SWENC made gives back the ten symbols and the action, under
every parameter set; and two valid inputs with the same frame are the same symbols and the same action. -/
def Obligations.SwitchRoundTrip : Prop :=
  (∀ (p : Config.Params) (a : SwitchAction) (i j : InputState) (r : ResultState),
    swencOp p a i ResultState.cleared = r → statusCode r.status = codeNibble .ok →
    j.inLen = r.outLen → (∀ k : Fin 32, k.val < 15 → j.inBuf[k] = r.outBuf[k]) →
    statusCode (swdecOp p j ResultState.cleared).status = codeNibble .ok ∧
    (swdecOp p j ResultState.cleared).frame = i.slice 0 10 ∧
    (swdecOp p j ResultState.cleared).rCmd = actionNibble a) ∧
  (∀ (p : Config.Params) (a a' : SwitchAction) (x x' : List Byte), x.length = 10 → x'.length = 10 →
    switchFrame p a x = switchFrame p a' x' → a = a' ∧ x = x')

/-! ### Sensor frames -/

/-- 43_sensor.md section 3: on a 27-character input with the marker at index 3, hex digits at 4..12 and decimal digits at
6..8, SNDEC delivers the CRC, the trailer and the fields, and reports OK with CRC_OK or, with the fields delivered all the
same, ChecksumMismatch. That rests on the parameters of this hardware (00_scope.md section 3, log entry 6): CRC_POLICY is
LOG_ONLY, and WEAK_BAT_MODE is LITERAL, so WB is 0 and R_BATT 50 or 100. -/
def Obligations.SndecDeliversTheReading : Prop :=
  ∀ s : State, s.input.len = 27 → s.input.inByte 3 = 0x39 →
    (∀ k, 4 ≤ k → k ≤ 12 → ishex (s.input.inByte k) = true) →
    (∀ k, 6 ≤ k → k ≤ 8 → isdec (s.input.inByte k) = true) →
    ∃ (crc rx : Byte) (pair hum d : Nat),
      crc = crc8f ((([3, 5, 7, 9] : List Nat).map fun k =>
        BitVec.ofNat 8 (16 * hexval (s.input.inByte k) + hexval (s.input.inByte (k + 1))))) ∧
      rx = BitVec.ofNat 8 (16 * hexval (s.input.inByte 11) + hexval (s.input.inByte 12)) ∧
      pair = 16 * hexval (s.input.inByte 4) + hexval (s.input.inByte 5) ∧
      hum = (16 * hexval (s.input.inByte 9) + hexval (s.input.inByte 10)) % 128 ∧
      d = 100 * decval (s.input.inByte 6) + 10 * decval (s.input.inByte 7) + decval (s.input.inByte 8) ∧
      exec .sndec s = .next { s with result :=
        { ResultState.cleared with
          status  := if crc = rx then 0x30 else 0x16
          rCrc    := crc
          rCrcRx  := rx
          rDevId  := BitVec.ofNat 6 (pair % 64 / 4)
          rTemp   := BitVec.ofInt 16 ((d : Int) - 400)
          rHum    := BitVec.ofNat 7 hum
          rSFlags := BitVec.ofNat 3 ((if hum = 106 then 0 else 1) + 2 * (pair / 2 % 2))
          rBatt   := if pair / 2 % 2 = 1 then 100 else 50 } }

/-- 43_sensor.md section 3 and 60_exceptions.md section 3: the order of SNDEC's checks. A failure before the CRC leaves its
status code alone; a non-decimal temperature digit leaves the CRC, the trailer and CRC_OK as the comparison wrote them. With a CRC mismatch
the last clause holds under CRC_POLICY = LOG_ONLY, this hardware's value (00_scope.md section 3, log entry 6). -/
def Obligations.SndecChecksInOrder : Prop :=
  ∀ s : State,
    (s.input.len ≠ 27 → exec .sndec s = .next { s with result := { ResultState.cleared with status := 0x04 } }) ∧
    (s.input.len = 27 → s.input.inByte 3 ≠ 0x39 →
      exec .sndec s = .next { s with result := { ResultState.cleared with status := 0x05 } }) ∧
    (s.input.len = 27 → s.input.inByte 3 = 0x39 → (∃ k, 4 ≤ k ∧ k ≤ 12 ∧ ishex (s.input.inByte k) = false) →
      exec .sndec s = .next { s with result := { ResultState.cleared with status := 0x04 } }) ∧
    (s.input.len = 27 → s.input.inByte 3 = 0x39 → (∀ k, 4 ≤ k → k ≤ 12 → ishex (s.input.inByte k) = true) →
      (∃ k, 6 ≤ k ∧ k ≤ 8 ∧ isdec (s.input.inByte k) = false) →
      exec .sndec s = .next { s with result :=
        { ResultState.cleared with
          status := if crc8f (sensorPayload s.input) = sensorTrailer s.input then 0x24 else 0x04
          rCrc   := crc8f (sensorPayload s.input)
          rCrcRx := sensorTrailer s.input } })

/-- 43_sensor.md section 2: characters 0..2 and 13..26 are never used. Two 27-character inputs that agree at 3..12 decode
alike. -/
def Obligations.SndecIgnoresTheRestOfTheLine : Prop :=
  ∀ s s' t t' : State, s.input.len = 27 → s'.input.len = 27 →
    (∀ k, 3 ≤ k → k ≤ 12 → s'.input.inByte k = s.input.inByte k) →
    exec .sndec s = .next t → exec .sndec s' = .next t' → t'.result = t.result

/-- 43_sensor.md section 3, temperature: a reading SNDEC delivers holds D - 400 exactly, in -400..599, and the device id is
bits 5:2 of the pair, 0..15. -/
def Obligations.SndecReadingIsExact : Prop :=
  ∀ s t : State, exec .sndec s = .next t → statusFv t.result.status = true →
    t.result.rTemp.toInt = 100 * (decval (s.input.inByte 6) : Int) + 10 * decval (s.input.inByte 7) +
      decval (s.input.inByte 8) - 400 ∧
    -400 ≤ t.result.rTemp.toInt ∧ t.result.rTemp.toInt ≤ 599 ∧
    t.result.rDevId.toNat =
      4 * (hexval (s.input.inByte 4) % 4) + hexval (s.input.inByte 5) / 4 ∧
    t.result.rDevId.toNat ≤ 15

/-- 43_sensor.md section 3, weak-battery flag: the weak flag of the first hex digit d of the humidity byte: always 0 under
LITERAL, bit 7 of the byte under BIT7; this hardware is LITERAL. -/
def Obligations.WeakFlagByMode : Prop :=
  Config.hardware.weakBatMode = .literal ∧
  ∀ d < 16, weakFlag .literal d = false ∧
    ∀ e < 16, weakFlag .bit7 d = (16 * d + e).testBit 7

/-- 43_sensor.md section 3, the CRC policies: on an input that passes every syntax check but whose CRC differs from its
trailer, LOG_ONLY reports ChecksumMismatch with FV = 1 and CRC_OK = 0 and the fields, REJECT the same code with FV = 0 and no
field; both leave the CRC and the trailer. -/
def Obligations.CrcPolicyDecidesDelivery : Prop :=
  Config.hardware.crcPolicy = .logOnly ∧
  ∀ (p : Config.Params) (i : InputState), i.len = 27 → i.inByte 3 = 0x39 →
    (∀ k, 4 ≤ k → k ≤ 12 → ishex (i.inByte k) = true) → (∀ k, 6 ≤ k → k ≤ 8 → isdec (i.inByte k) = true) →
    crc8f (sensorPayload i) ≠ sensorTrailer i →
    (p.crcPolicy = .reject →
      sndecOp p i ResultState.cleared =
        { ResultState.cleared with
          status := 0x06, rCrc := crc8f (sensorPayload i), rCrcRx := sensorTrailer i }) ∧
    (p.crcPolicy = .logOnly →
      sndecOp p i ResultState.cleared =
        { sensorFields p i ResultState.cleared with
          status := 0x16, rCrc := crc8f (sensorPayload i), rCrcRx := sensorTrailer i })

/-- 43_sensor.md section 3: the known-bad frame "N019ECE33398CAAAA0000A17C69" under both policies. -/
def Obligations.KnownBadFrameIsFlagged : Prop :=
  let frame : List Byte :=
    [0x4E, 0x30, 0x31, 0x39, 0x45, 0x43, 0x45, 0x33, 0x33, 0x33, 0x39, 0x38, 0x43,
     0x41, 0x41, 0x41, 0x41, 0x30, 0x30, 0x30, 0x30, 0x41, 0x31, 0x37, 0x43, 0x36, 0x39]
  crc8f [0x9E, 0xCE, 0x33, 0x39] = 0xDE ∧
  ∀ (p : Config.Params) (i : InputState), i.len = 27 → i.slice 0 27 = frame →
    sndecOp p i ResultState.cleared =
      { ResultState.cleared with
        status := match p.crcPolicy with
          | .reject  => 0x06
          | .logOnly => 0x04
        rCrc   := 0xDE
        rCrcRx := 0x8C }

/-! ### Host programs -/

/-- 30_encoding.md section 5: LDBUF writes its n bytes and IN_LEN, and leaves the buffer above them, the other registers and
the results as they were. -/
def Obligations.LdbufLoadsTheBuffer : Prop :=
  ∀ (s : State) (bs : List Byte), bs.length ≤ 32 →
    ∃ es t, expand s (.ldbuf bs) = some es ∧ es.length = bs.length + 1 ∧ performAll es s = .next t ∧
      t.input.len = bs.length ∧ t.input.inBytes = bs ∧
      (∀ k : Fin 32, bs.length ≤ k.val → t.input.inBuf[k] = s.input.inBuf[k]) ∧
      { t.input with inLen := s.input.inLen, inBuf := s.input.inBuf } = s.input ∧
      t.result = s.result ∧ t.pending = s.pending

/-- 30_encoding.md section 5: LDCOVER's seven writes load a Cover state; COMMIT's fourteen accesses copy R_KEY, R_RC and
R_ADDR into ARG_KEY, ARG_RC and ARG_ADDR. Both change nothing else of the block. -/
def Obligations.LdcoverAndCommitLoadTheArguments : Prop :=
  (∀ (s : State) (k : Byte) (rc a : Word24),
    ∃ es t, expand s (.ldcover k rc a) = some es ∧ es.length = 7 ∧ performAll es s = .next t ∧
      t.input = { s.input with argKey := BitVec.ofNat 4 (k.toNat % 16), argRc := rc, argAddr := a } ∧
      t.result = s.result) ∧
  ∀ s : State, ∃ es t, expand s .commit = some es ∧ es.length = 14 ∧ performAll es s = .next t ∧
    t.input = { s.input with argKey := s.result.rKey, argRc := s.result.rRc, argAddr := s.result.rAddr } ∧
    t.result = s.result

/-! ### Invariants -/

/-- The invariant of the result registers under WEAK_BAT_MODE = LITERAL holds after reset (70_reset_and_hazards.md section 1,
log entry 6). -/
def Obligations.ResetMeetsTheResultRanges : Prop := resultInv State.reset

/-- 10_state.md sections 3 and 4, 60_exceptions.md section 1, 41_switch.md sections 1 and 2, 42_cover.md section 3,
43_sensor.md section 3, 00_scope.md section 3: on this hardware, whose WEAK_BAT_MODE is LITERAL (log entry 6), every step
keeps the result registers in what the spec says they hold. STATUS[7:6] stay 0 and CODE a code the block writes; OUT_LEN is
0, 10 (SWDEC), 15 (SWENC) or 17 (CVENC) and OUT_BUF reads 0 from there on; R_CMD, R_DEVID and R_TEMP keep their ranges; FV = 0
means no field output, so no successor state; and CRC_OK = 1 means that the CRC equals the trailer. That WB stays 0 and R_BATT
is 0, 50 or 100 holds under LITERAL only: under BIT7 WB can be 1 and R_BATT 10, which the register itself allows. -/
def Obligations.EveryStepKeepsTheResultRanges : Prop :=
  ∀ s t : State, resultInv s → step s = .next t → resultInv t

/-- The record of a machine just reset agrees with CMD and STATUS (70_reset_and_hazards.md section 1). -/
def Obligations.ResetMeetsTheRecord : Prop := recordAgrees State.reset

/-- 10_state.md section 3 (CMD, STATUS), with the record that 60_exceptions.md section 1 tells a model to keep: every step
keeps CMD equal to the last word written since reset and STATUS equal to what that word's operation left, 0x00 and NONE where
there was none. The form of the record is the model's (log entry 2). -/
def Obligations.EveryStepKeepsTheRecord : Prop :=
  ∀ s t : State, recordAgrees s → step s = .next t → recordAgrees t
end

