-- ==== Sys2Proof/Laws/State.lean ====
section
/-! SUPPORT. One lemma for each field of each update of the state, so that no proof unfolds a record update. -/

namespace Sys2Proof.Machine


@[simp] theorem setFv_outLen (r : ResultState) : (setFv r).outLen = r.outLen := rfl
@[simp] theorem setFv_rKey (r : ResultState) : (setFv r).rKey = r.rKey := rfl
@[simp] theorem setFv_rRc (r : ResultState) : (setFv r).rRc = r.rRc := rfl
@[simp] theorem setFv_rAddr (r : ResultState) : (setFv r).rAddr = r.rAddr := rfl
@[simp] theorem setFv_rCmd (r : ResultState) : (setFv r).rCmd = r.rCmd := rfl
@[simp] theorem setFv_rCrc (r : ResultState) : (setFv r).rCrc = r.rCrc := rfl
@[simp] theorem setFv_rCrcRx (r : ResultState) : (setFv r).rCrcRx = r.rCrcRx := rfl
@[simp] theorem setFv_rCs (r : ResultState) : (setFv r).rCs = r.rCs := rfl
@[simp] theorem setFv_rDevId (r : ResultState) : (setFv r).rDevId = r.rDevId := rfl
@[simp] theorem setFv_rTemp (r : ResultState) : (setFv r).rTemp = r.rTemp := rfl
@[simp] theorem setFv_rHum (r : ResultState) : (setFv r).rHum = r.rHum := rfl
@[simp] theorem setFv_rSFlags (r : ResultState) : (setFv r).rSFlags = r.rSFlags := rfl
@[simp] theorem setFv_rBatt (r : ResultState) : (setFv r).rBatt = r.rBatt := rfl
@[simp] theorem setFv_outBuf (r : ResultState) : (setFv r).outBuf = r.outBuf := rfl

@[simp] theorem setCrcOk_outLen (b : Bool) (r : ResultState) : (setCrcOk b r).outLen = r.outLen := rfl
@[simp] theorem setCrcOk_rKey (b : Bool) (r : ResultState) : (setCrcOk b r).rKey = r.rKey := rfl
@[simp] theorem setCrcOk_rRc (b : Bool) (r : ResultState) : (setCrcOk b r).rRc = r.rRc := rfl
@[simp] theorem setCrcOk_rAddr (b : Bool) (r : ResultState) : (setCrcOk b r).rAddr = r.rAddr := rfl
@[simp] theorem setCrcOk_rCmd (b : Bool) (r : ResultState) : (setCrcOk b r).rCmd = r.rCmd := rfl
@[simp] theorem setCrcOk_rCrc (b : Bool) (r : ResultState) : (setCrcOk b r).rCrc = r.rCrc := rfl
@[simp] theorem setCrcOk_rCrcRx (b : Bool) (r : ResultState) : (setCrcOk b r).rCrcRx = r.rCrcRx := rfl
@[simp] theorem setCrcOk_rCs (b : Bool) (r : ResultState) : (setCrcOk b r).rCs = r.rCs := rfl
@[simp] theorem setCrcOk_rDevId (b : Bool) (r : ResultState) : (setCrcOk b r).rDevId = r.rDevId := rfl
@[simp] theorem setCrcOk_rTemp (b : Bool) (r : ResultState) : (setCrcOk b r).rTemp = r.rTemp := rfl
@[simp] theorem setCrcOk_rHum (b : Bool) (r : ResultState) : (setCrcOk b r).rHum = r.rHum := rfl
@[simp] theorem setCrcOk_rSFlags (b : Bool) (r : ResultState) : (setCrcOk b r).rSFlags = r.rSFlags := rfl
@[simp] theorem setCrcOk_rBatt (b : Bool) (r : ResultState) : (setCrcOk b r).rBatt = r.rBatt := rfl
@[simp] theorem setCrcOk_outBuf (b : Bool) (r : ResultState) : (setCrcOk b r).outBuf = r.outBuf := rfl

@[simp] theorem finish_outLen (c : StatusCode) (r : ResultState) : (finish c r).outLen = r.outLen := rfl
@[simp] theorem finish_rKey (c : StatusCode) (r : ResultState) : (finish c r).rKey = r.rKey := rfl
@[simp] theorem finish_rRc (c : StatusCode) (r : ResultState) : (finish c r).rRc = r.rRc := rfl
@[simp] theorem finish_rAddr (c : StatusCode) (r : ResultState) : (finish c r).rAddr = r.rAddr := rfl
@[simp] theorem finish_rCmd (c : StatusCode) (r : ResultState) : (finish c r).rCmd = r.rCmd := rfl
@[simp] theorem finish_rCrc (c : StatusCode) (r : ResultState) : (finish c r).rCrc = r.rCrc := rfl
@[simp] theorem finish_rCrcRx (c : StatusCode) (r : ResultState) : (finish c r).rCrcRx = r.rCrcRx := rfl
@[simp] theorem finish_rCs (c : StatusCode) (r : ResultState) : (finish c r).rCs = r.rCs := rfl
@[simp] theorem finish_rDevId (c : StatusCode) (r : ResultState) : (finish c r).rDevId = r.rDevId := rfl
@[simp] theorem finish_rTemp (c : StatusCode) (r : ResultState) : (finish c r).rTemp = r.rTemp := rfl
@[simp] theorem finish_rHum (c : StatusCode) (r : ResultState) : (finish c r).rHum = r.rHum := rfl
@[simp] theorem finish_rSFlags (c : StatusCode) (r : ResultState) : (finish c r).rSFlags = r.rSFlags := rfl
@[simp] theorem finish_rBatt (c : StatusCode) (r : ResultState) : (finish c r).rBatt = r.rBatt := rfl
@[simp] theorem finish_outBuf (c : StatusCode) (r : ResultState) : (finish c r).outBuf = r.outBuf := rfl

@[simp] theorem putFrame_status (l : List Byte) (r : ResultState) : (putFrame l r).status = r.status := rfl
@[simp] theorem putFrame_rKey (l : List Byte) (r : ResultState) : (putFrame l r).rKey = r.rKey := rfl
@[simp] theorem putFrame_rRc (l : List Byte) (r : ResultState) : (putFrame l r).rRc = r.rRc := rfl
@[simp] theorem putFrame_rAddr (l : List Byte) (r : ResultState) : (putFrame l r).rAddr = r.rAddr := rfl
@[simp] theorem putFrame_rCmd (l : List Byte) (r : ResultState) : (putFrame l r).rCmd = r.rCmd := rfl
@[simp] theorem putFrame_rCrc (l : List Byte) (r : ResultState) : (putFrame l r).rCrc = r.rCrc := rfl
@[simp] theorem putFrame_rCrcRx (l : List Byte) (r : ResultState) : (putFrame l r).rCrcRx = r.rCrcRx := rfl
@[simp] theorem putFrame_rCs (l : List Byte) (r : ResultState) : (putFrame l r).rCs = r.rCs := rfl
@[simp] theorem putFrame_rDevId (l : List Byte) (r : ResultState) : (putFrame l r).rDevId = r.rDevId := rfl
@[simp] theorem putFrame_rTemp (l : List Byte) (r : ResultState) : (putFrame l r).rTemp = r.rTemp := rfl
@[simp] theorem putFrame_rHum (l : List Byte) (r : ResultState) : (putFrame l r).rHum = r.rHum := rfl
@[simp] theorem putFrame_rSFlags (l : List Byte) (r : ResultState) : (putFrame l r).rSFlags = r.rSFlags := rfl
@[simp] theorem putFrame_rBatt (l : List Byte) (r : ResultState) : (putFrame l r).rBatt = r.rBatt := rfl
@[simp] theorem putFrame_outLen (l : List Byte) (r : ResultState) :
    (putFrame l r).outLen = BitVec.ofNat 6 l.length := rfl
@[simp] theorem putFrame_outBuf (l : List Byte) (r : ResultState) :
    (putFrame l r).outBuf = writeBytes r.outBuf 0 l := rfl

@[simp] theorem putSuccessor_status (i : InputState) (r : ResultState) :
    (putSuccessor i r).status = r.status := rfl
@[simp] theorem putSuccessor_outLen (i : InputState) (r : ResultState) :
    (putSuccessor i r).outLen = r.outLen := rfl
@[simp] theorem putSuccessor_rCmd (i : InputState) (r : ResultState) :
    (putSuccessor i r).rCmd = r.rCmd := rfl
@[simp] theorem putSuccessor_rCrc (i : InputState) (r : ResultState) :
    (putSuccessor i r).rCrc = r.rCrc := rfl
@[simp] theorem putSuccessor_rCrcRx (i : InputState) (r : ResultState) :
    (putSuccessor i r).rCrcRx = r.rCrcRx := rfl
@[simp] theorem putSuccessor_rCs (i : InputState) (r : ResultState) :
    (putSuccessor i r).rCs = r.rCs := rfl
@[simp] theorem putSuccessor_rDevId (i : InputState) (r : ResultState) :
    (putSuccessor i r).rDevId = r.rDevId := rfl
@[simp] theorem putSuccessor_rTemp (i : InputState) (r : ResultState) :
    (putSuccessor i r).rTemp = r.rTemp := rfl
@[simp] theorem putSuccessor_rHum (i : InputState) (r : ResultState) :
    (putSuccessor i r).rHum = r.rHum := rfl
@[simp] theorem putSuccessor_rSFlags (i : InputState) (r : ResultState) :
    (putSuccessor i r).rSFlags = r.rSFlags := rfl
@[simp] theorem putSuccessor_rBatt (i : InputState) (r : ResultState) :
    (putSuccessor i r).rBatt = r.rBatt := rfl
@[simp] theorem putSuccessor_outBuf (i : InputState) (r : ResultState) :
    (putSuccessor i r).outBuf = r.outBuf := rfl
@[simp] theorem putSuccessor_rKey (i : InputState) (r : ResultState) :
    (putSuccessor i r).rKey = i.argKey + 1 := rfl
@[simp] theorem putSuccessor_rRc (i : InputState) (r : ResultState) :
    (putSuccessor i r).rRc = i.argRc + 1 := rfl
@[simp] theorem putSuccessor_rAddr (i : InputState) (r : ResultState) :
    (putSuccessor i r).rAddr = i.argAddr := rfl

@[simp] theorem cleared_status : ResultState.cleared.status = 0x00 := rfl
@[simp] theorem cleared_outLen : ResultState.cleared.outLen = 0 := rfl
@[simp] theorem cleared_rKey : ResultState.cleared.rKey = 0 := rfl
@[simp] theorem cleared_rRc : ResultState.cleared.rRc = 0 := rfl
@[simp] theorem cleared_rAddr : ResultState.cleared.rAddr = 0 := rfl
@[simp] theorem cleared_rCmd : ResultState.cleared.rCmd = 0 := rfl
@[simp] theorem cleared_rCrc : ResultState.cleared.rCrc = 0 := rfl
@[simp] theorem cleared_rCrcRx : ResultState.cleared.rCrcRx = 0 := rfl
@[simp] theorem cleared_rCs : ResultState.cleared.rCs = 0 := rfl
@[simp] theorem cleared_rDevId : ResultState.cleared.rDevId = 0 := rfl
@[simp] theorem cleared_rTemp : ResultState.cleared.rTemp = 0 := rfl
@[simp] theorem cleared_rHum : ResultState.cleared.rHum = 0 := rfl
@[simp] theorem cleared_rSFlags : ResultState.cleared.rSFlags = 0 := rfl
@[simp] theorem cleared_rBatt : ResultState.cleared.rBatt = 0 := rfl
@[simp] theorem cleared_outBuf : ResultState.cleared.outBuf = Buffer.zero := rfl

@[simp] theorem clearResults_eq (r : ResultState) : clearResults r = ResultState.cleared := rfl

@[simp] theorem withResult_input (s : State) (r : ResultState) :
    (s.withResult r).input = s.input := rfl
@[simp] theorem withResult_result (s : State) (r : ResultState) :
    (s.withResult r).result = r := rfl
@[simp] theorem withResult_pending (s : State) (r : ResultState) :
    (s.withResult r).pending = s.pending := rfl
@[simp] theorem withResult_history (s : State) (r : ResultState) :
    (s.withResult r).history = s.history := rfl

@[simp] theorem record_input (s : State) (e : PortEvent) :
    (s.record e).input = s.input := rfl
@[simp] theorem record_result (s : State) (e : PortEvent) :
    (s.record e).result = s.result := rfl
@[simp] theorem record_pending (s : State) (e : PortEvent) :
    (s.record e).pending = s.pending := rfl
@[simp] theorem record_history (s : State) (e : PortEvent) :
    (s.record e).history = e :: s.history := rfl

@[simp] theorem resetBlock_input (s : State) :
    (s.resetBlock).input = InputState.reset := rfl
@[simp] theorem resetBlock_result (s : State) :
    (s.resetBlock).result = ResultState.reset := rfl
@[simp] theorem resetBlock_pending (s : State) :
    (s.resetBlock).pending = s.pending := rfl
@[simp] theorem resetBlock_history (s : State) :
    (s.resetBlock).history = s.history := rfl

@[simp] theorem store_input (s : State) (off v : Byte) :
    (s.store off v).input = storeByte s.input v (portMap off) := rfl
@[simp] theorem store_result (s : State) (off v : Byte) :
    (s.store off v).result = s.result := rfl
@[simp] theorem store_pending (s : State) (off v : Byte) :
    (s.store off v).pending = s.pending := rfl
@[simp] theorem store_history (s : State) (off v : Byte) :
    (s.store off v).history = s.history := rfl

end Sys2Proof.Machine
end

