-- ==== Sys2Proof/Laws/Ops.lean ====
section
/-! SUPPORT. What each shared operation over the registers does, said once: STATUS and its fields, the buffers, the frame,
the operands, and reading the port after a store. -/

namespace Sys2Proof.Machine

/-! ### STATUS -/

@[simp] theorem statusCode_statusByte (c f : Bool) (n : Nibble) : statusCode (statusByte c f n) = n := by
  cases c <;> cases f <;> revert n <;> decide

@[simp] theorem statusFv_statusByte (c f : Bool) (n : Nibble) : statusFv (statusByte c f n) = f := by
  cases c <;> cases f <;> revert n <;> decide

@[simp] theorem statusCrcOk_statusByte (c f : Bool) (n : Nibble) : statusCrcOk (statusByte c f n) = c := by
  cases c <;> cases f <;> revert n <;> decide

theorem statusByte_high (c f : Bool) (n : Nibble) :
    (statusByte c f n).getLsbD 7 = false ∧ (statusByte c f n).getLsbD 6 = false := by
  cases c <;> cases f <;> revert n <;> decide

@[simp] theorem finish_status (c : StatusCode) (r : ResultState) :
    (finish c r).status = statusByte (statusCrcOk r.status) (statusFv r.status) (codeNibble c) := rfl

@[simp] theorem setFv_status (r : ResultState) :
    (setFv r).status = statusByte (statusCrcOk r.status) true (statusCode r.status) := rfl

@[simp] theorem setCrcOk_status (b : Bool) (r : ResultState) :
    (setCrcOk b r).status = statusByte b (statusFv r.status) (statusCode r.status) := rfl

@[simp] theorem statusFv_zero : statusFv 0#8 = false := by decide

@[simp] theorem statusCrcOk_zero : statusCrcOk 0#8 = false := by decide

@[simp] theorem statusCode_zero : statusCode 0#8 = 0 := by decide

/-- A failed check: the status code and nothing else. -/
theorem finish_eq (c : StatusCode) (r : ResultState) :
    finish c r = { r with status := statusByte (statusCrcOk r.status) (statusFv r.status) (codeNibble c) } := rfl

/-- A delivered result: FV and the status code. -/
theorem finish_setFv_eq (c : StatusCode) (r : ResultState) :
    finish c (setFv r) = { r with status := statusByte (statusCrcOk r.status) true (codeNibble c) } := by
  simp [finish, setFv]

/-- A check failed on cleared results: the code in STATUS and nothing else. -/
theorem finish_cleared (c : StatusCode) :
    finish c ResultState.cleared = { ResultState.cleared with status := statusByte false false (codeNibble c) } := by
  simp [finish]

/-! ### Buffers and frames -/

/-- What a run of writes does to each byte of a buffer. -/
theorem writeBytes_getElem (l : List Byte) (buf : Buffer) (k j : Nat) (hj : j < 32) :
    (writeBytes buf k l)[j] = if h : k ≤ j ∧ j < k + l.length then l[j - k]'(by omega) else buf[j] := by
  induction l generalizing buf k with
  | nil => simp [writeBytes]
  | cons b bs ih =>
    rw [writeBytes, ih]
    by_cases h1 : k + 1 ≤ j ∧ j < k + 1 + bs.length
    · have h2 : k ≤ j ∧ j < k + (b :: bs).length := by simp; omega
      rw [dif_pos h1, dif_pos h2]
      have h3 : j - k = (j - (k + 1)) + 1 := by omega
      simp [h3]
    · rw [dif_neg h1]
      by_cases h4 : k = j
      · subst h4
        simp
      · have h2 : ¬(k ≤ j ∧ j < k + (b :: bs).length) := by simp; omega
        rw [dif_neg h2, Vector.getElem_setIfInBounds hj]
        simp [h4]

@[simp] theorem bufferZero_getElem (j : Nat) (hj : j < 32) : Buffer.zero[j] = 0 := by
  simp [Buffer.zero]

/-- A buffer that held zeros holds the frame and then zeros (rule R42). -/
theorem writeBytes_toList (l : List Byte) (hl : l.length ≤ 32) :
    (writeBytes Buffer.zero 0 l).toList = l ++ List.replicate (32 - l.length) 0 := by
  apply List.ext_getElem
  · simp only [Vector.length_toList, List.length_append, List.length_replicate, Config.bufMax]; omega
  · intro j h1 h2
    have hj : j < 32 := by simpa using h1
    rw [Vector.getElem_toList, writeBytes_getElem l _ 0 j hj, List.getElem_append]
    by_cases hjl : j < l.length
    · simp [hjl]
    · simp [hjl]

/-- The frame an operation delivered is read back whole (rules R26, R42). -/
theorem putFrame_frame (l : List Byte) (hl : l.length ≤ 32) : (putFrame l ResultState.cleared).frame = l := by
  have h64 : l.length % 64 = l.length := Nat.mod_eq_of_lt (by omega)
  simp [ResultState.frame, writeBytes_toList l hl, h64]

/-! ### Operands -/

theorem len_lt (i : InputState) : i.len < 64 := i.inLen.isLt

theorem inByte_eq (i : InputState) (k : Nat) (hk : k < 32) : i.inByte k = i.inBuf[k] := by
  simp [InputState.inByte, List.getD, hk]

@[simp] theorem slice_length (i : InputState) (a n : Nat) (h : a + n ≤ 32) : (i.slice a n).length = n := by
  simp only [InputState.slice, List.length_take, List.length_drop, Vector.length_toList, Config.bufMax]
  omega

theorem slice_getElem (i : InputState) (a n k : Nat) (h : k < (i.slice a n).length) :
    (i.slice a n)[k] = i.inByte (a + k) := by
  simp only [InputState.slice, List.length_take, List.length_drop, Vector.length_toList, Config.bufMax] at h
  rw [inByte_eq i (a + k) (by omega)]
  simp [InputState.slice]

/-- A slice of the input is its bytes, index by index. -/
theorem slice_eq_map (i : InputState) (a n : Nat) (h : a + n ≤ 32) :
    i.slice a n = (List.range n).map fun k => i.inByte (a + k) := by
  apply List.ext_getElem
  · simp [h]
  · intro k h1 h2
    rw [slice_getElem]
    simp

/-- Two inputs that agree on a range have the same slice there. -/
theorem slice_congr (i j : InputState) (a n : Nat) (h : a + n ≤ 32)
    (hb : ∀ k, a ≤ k → k < a + n → j.inByte k = i.inByte k) : j.slice a n = i.slice a n := by
  rw [slice_eq_map i a n h, slice_eq_map j a n h]
  apply List.map_congr_left
  intro k hk
  exact hb _ (by omega) (by have := List.mem_range.1 hk; omega)

/-- A check of every byte of a slice. -/
theorem slice_all (i : InputState) (f : Byte → Bool) (a n : Nat) (h : a + n ≤ 32) :
    (i.slice a n).all f = true ↔ ∀ k, a ≤ k → k < a + n → f (i.inByte k) = true := by
  rw [slice_eq_map i a n h]
  simp only [List.all_map, List.all_eq_true, List.mem_range, Function.comp]
  constructor
  · intro hall k h1 h2
    have := hall (k - a) (by omega)
    rwa [Nat.add_sub_cancel' h1] at this
  · intro hall k hk
    exact hall _ (by omega) (by omega)

theorem isdec_ishex (c : Byte) (h : isdec c = true) : ishex c = true := by simp [ishex, h]

theorem hexval_lt (c : Byte) (h : ishex c = true) : hexval c < 16 := by
  simp only [ishex, isdec, isUpperHex, isLowerHex, Bool.or_eq_true, Bool.and_eq_true, decide_eq_true_eq] at h
  simp only [hexval, isdec, isUpperHex, Bool.and_eq_true, decide_eq_true_eq]
  split
  · omega
  · split <;> omega

theorem hexchar_ishex (n : Nat) (h : n < 16) : ishex (hexchar n) = true := by
  interval_cases n <;> decide

theorem hexval_hexchar (n : Nat) (h : n < 16) : hexval (hexchar n) = n := by
  interval_cases n <;> decide

@[simp] theorem hexstr_length (k v : Nat) : (hexstr k v).length = k := by
  induction k with
  | zero => rfl
  | succ k ih => simp [hexstr, ih]

theorem hexstr_ishex (k v : Nat) : ∀ c ∈ hexstr k v, ishex c = true := by
  induction k with
  | zero => simp [hexstr]
  | succ k ih =>
    intro c hc
    rcases List.mem_cons.1 hc with rfl | hc
    · exact hexchar_ishex _ (Nat.mod_lt _ (by decide))
    · exact ih c hc

theorem hexnum_foldl (l : List Byte) (a : Nat) :
    l.foldl (fun acc c => 16 * acc + hexval c) a = a * 16 ^ l.length + hexnum l := by
  induction l generalizing a with
  | nil => simp [hexnum]
  | cons c l ih =>
    have hc : hexnum (c :: l) = l.foldl (fun acc c => 16 * acc + hexval c) (16 * 0 + hexval c) := rfl
    rw [List.foldl_cons, ih, hc, ih (16 * 0 + hexval c)]
    simp only [List.length_cons, pow_succ]
    ring

/-- The value of a rendered number is its low k hex digits. -/
theorem hexnum_hexstr (k v : Nat) : hexnum (hexstr k v) = v % 16 ^ k := by
  induction k with
  | zero => simp [hexstr, hexnum, Nat.mod_one]
  | succ k ih =>
    rw [hexstr, hexnum, List.foldl_cons, hexnum_foldl, hexstr_length, ih,
      hexval_hexchar _ (Nat.mod_lt _ (by decide)), pow_succ, Nat.mod_mul]
    ring

/-! ### The port -/

theorem byteOf24_setByteOf24 (v : Word24) (k j : Fin 3) (b : Byte) :
    byteOf24 (setByteOf24 v k b) j = if j = k then b else byteOf24 v j := by
  fin_cases k <;> fin_cases j <;>
    (apply BitVec.eq_of_getLsbD_eq; intro i hi; interval_cases i <;> simp [byteOf24, setByteOf24])

/-- Storing leaves CMD's own byte, the masked byte of another read/write register, and every other byte of the port as it
was (rules R52, R53). -/
theorem readByte_storeByte (i : InputState) (r : ResultState) (v : Byte) (p q : PortByte) (h : q ≠ p) :
    readByte (storeByte i v p) r q = readByte i r q := by
  cases p with
  | argRc k =>
    cases q with
    | argRc j =>
      have : j ≠ k := fun e => h (by rw [e])
      simp [readByte, storeByte, byteOf24_setByteOf24, this]
    | _ => rfl
  | argAddr k =>
    cases q with
    | argAddr j =>
      have : j ≠ k := fun e => h (by rw [e])
      simp [readByte, storeByte, byteOf24_setByteOf24, this]
    | _ => rfl
  | inBuf k =>
    cases q with
    | inBuf j =>
      have : k.val ≠ j.val := fun e => h (by rw [Fin.ext e])
      simp [readByte, storeByte, this]
    | _ => rfl
  | cmd => cases q <;> first | rfl | exact absurd rfl h
  | inLen => cases q <;> first | rfl | exact absurd rfl h
  | argKey => cases q <;> first | rfl | exact absurd rfl h
  | _ => rfl

end Sys2Proof.Machine
end

