-- ==== Sys2Proof/Laws/Exec.lean ====
section
/-! SUPPORT. What an operation, a write to CMD, an access and a step can do, each said once. -/

namespace Sys2Proof.Machine

/-- The operation of an instruction on this hardware. -/
def opOf : Instr → InputState → ResultState → ResultState
  | .nop        => nopOp
  | .crc8       => crc8Op
  | .xcs        => xcsOp
  | .cvcs       => cvcsOp
  | .swenc a    => swencOp Config.hardware a
  | .swdec      => swdecOp Config.hardware
  | .cvenc code => cvencOp Config.hardware code
  | .cvdec      => cvdecOp Config.hardware
  | .sndec      => sndecOp Config.hardware
  | .rcinc      => rcincOp

/-- An instruction always ends in a next state, and that state differs in the results alone, which the operation computes
from the input state and cleared results. -/
theorem exec_eq (i : Instr) (s : State) :
    exec i s = .next { s with result := opOf i s.input ResultState.cleared } := by
  cases i <;> rfl

theorem exec_next {i : Instr} {s t : State} (h : exec i s = .next t) :
    t = { s with result := opOf i s.input ResultState.cleared } := by
  rw [exec_eq] at h
  exact (Host.Outcome.next.inj h).symm

/-- The operation of a command word: of the instruction it decodes to, or the illegal outcome. -/
def opOfWord (w : Byte) : InputState → ResultState → ResultState :=
  match decode w with
  | .ok i    => opOf i
  | .error _ => illegalOp

theorem execute_eq (w : Byte) (s : State) :
    execute w s = .next { s with result := opOfWord w s.input ResultState.cleared } := by
  unfold execute opOfWord
  cases decode w with
  | ok i => exact exec_eq i s
  | error e => rfl

@[simp] theorem storeByte_cmd (i : InputState) (v : Byte) : storeByte i v .cmd = { i with cmd := v } := rfl

@[simp] theorem portMap_cmd : portMap 0x00 = .cmd := by decide

/-- A write to CMD: the word is stored, its operation computes the results, and the record grows. -/
theorem hostWrite_cmd (w : Byte) (s : State) :
    hostWrite 0x00 w s =
      .next ({ s with
        input   := { s.input with cmd := w }
        result  := opOfWord w { s.input with cmd := w } ResultState.cleared
        history := .commandDone w (opOfWord w { s.input with cmd := w } ResultState.cleared).status :: s.history }) := by
  unfold hostWrite
  rw [if_pos portMap_cmd, execute_eq]
  rfl

/-- Only offset 0x00 is CMD. -/
theorem portMap_eq_cmd (off : Byte) : portMap off = .cmd ↔ off = 0x00 := by
  revert off; decide

/-- A write at any other offset stores the byte where it can be stored, and nothing more. -/
theorem hostWrite_other (off v : Byte) (s : State) (h : off ≠ 0x00) : hostWrite off v s = .next (s.store off v) := by
  unfold hostWrite
  rw [if_neg (fun e => h ((portMap_eq_cmd off).1 e))]

/-- What a write can do. -/
theorem hostWrite_cases {off v : Byte} {s t : State} (h : hostWrite off v s = .next t) :
    (off = 0x00 ∧
      t = { s with
        input   := { s.input with cmd := v }
        result  := opOfWord v { s.input with cmd := v } ResultState.cleared
        history := .commandDone v (opOfWord v { s.input with cmd := v } ResultState.cleared).status :: s.history }) ∨
    (off ≠ 0x00 ∧ t = s.store off v) := by
  by_cases h0 : off = 0x00
  · subst h0
    rw [hostWrite_cmd] at h
    exact .inl ⟨rfl, (Host.Outcome.next.inj h).symm⟩
  · rw [hostWrite_other off v s h0] at h
    exact .inr ⟨h0, (Host.Outcome.next.inj h).symm⟩

/-- What an access, or reset, can do when it ends in a next state. -/
theorem perform_cases {e : HostEvent} {s t : State} (h : perform e s = .next t) :
    (∃ off, t = s.record (.readReply off (hostRead s off)) ∧
      (e = .read off ∨ ∃ a, e = .busRead a)) ∨
    (∃ off v, hostWrite off v s = .next t ∧ (e = .write off v ∨ ∃ a, e = .busWrite a v)) ∨
    (e = .reset ∧ t = s.resetBlock.record .resetDone) := by
  cases e with
  | read off => exact .inl ⟨off, (Host.Outcome.next.inj h).symm, .inl rfl⟩
  | write off v => exact .inr (.inl ⟨off, v, h, .inl rfl⟩)
  | busRead a =>
    simp only [perform] at h
    split at h
    · exact .inl ⟨_, (Host.Outcome.next.inj h).symm, .inr ⟨a, rfl⟩⟩
    · cases h
  | busWrite a v =>
    simp only [perform] at h
    split at h
    · exact .inr (.inl ⟨_, v, h, .inr ⟨a, rfl⟩⟩)
    · cases h
  | wideRead b o => cases h
  | wideWrite b o v => cases h
  | reset => exact .inr (.inr ⟨rfl, (Host.Outcome.next.inj h).symm⟩)

/-- What a step can do: nothing with no access pending, else the oldest access. -/
theorem step_cases {s t : State} (h : step s = .next t) :
    (s.pending = [] ∧ t = s) ∨
    (∃ e rest, s.pending = e :: rest ∧ perform e { s with pending := rest } = .next t) := by
  unfold step takeAccess at h
  split at h
  · exact .inl ⟨by assumption, (Host.Outcome.next.inj h).symm⟩
  · exact .inr ⟨_, _, by assumption, h⟩

end Sys2Proof.Machine
end

