-- ==== Sys2Proof/Laws/PerInstr.lean ====
section
/-! SUPPORT. Statements made of every operation as syntax, one lemma for each constructor. -/

namespace Sys2Proof.Laws.Encoding

/-- The operation is well formed, its word holds its two fields at their places (rule R71), and the word matches its own row
of the opcode table and no other. -/
def Statement (i : Instr) : Prop :=
  i.wellFormed = true ∧ opcOf (encode i) = i.opc ∧ modOf (encode i) = i.mod ∧
    matchingRows (encode i) = [i.mnemonic]

theorem nop : Statement .nop := by unfold Statement; decide

theorem crc8 : Statement .crc8 := by unfold Statement; decide

theorem xcs : Statement .xcs := by unfold Statement; decide

theorem cvcs : Statement .cvcs := by unfold Statement; decide

theorem swenc (a : SwitchAction) : Statement (.swenc a) := by cases a <;> (unfold Statement; decide)

theorem swdec : Statement .swdec := by unfold Statement; decide

theorem cvenc (code : Nibble) : Statement (.cvenc code) := by unfold Statement; revert code; decide

theorem cvdec : Statement .cvdec := by unfold Statement; decide

theorem sndec : Statement .sndec := by unfold Statement; decide

theorem rcinc : Statement .rcinc := by unfold Statement; decide

end Sys2Proof.Laws.Encoding
end

