-- ==== Sys2Proof/Tests/Slice0.lean ====
section
/-! SUPPORT. Tests of single operations and accesses against 95_test_vectors.md and the rules' own corner cases, the smoke
tests of WellFormed, the decoding of words written out from 30_encoding.md, and a witness for the hypotheses of each
obligation that has any. -/

namespace Sys2Proof.Tests

open Sys2Proof Sys2Proof.Machine

/-! ### Small states -/

/-- Reset input state with the given bytes loaded (what LDBUF leaves). -/
def loaded (l : List Byte) : InputState :=
  { InputState.reset with inLen := BitVec.ofNat 6 l.length, inBuf := writeBytes Buffer.zero 0 l }

/-- The machine just reset with the given bytes loaded. -/
def machine (l : List Byte) : State := { State.reset with input := loaded l }

/-- The machine just reset with a Cover state loaded. -/
def cover (k : Nibble) (rc a : Word24) : State :=
  { State.reset with input := { InputState.reset with argKey := k, argRc := rc, argAddr := a } }

/-- The result state of an outcome that is a next state. -/
def resultOf : Host.Outcome State Fault Refusal → Option ResultState
  | .next t    => some t.result
  | .fault _   => none
  | .refused _ => none

/-- STATUS, OUT_BUF[0..OUT_LEN-1] and R_CMD after an operation. -/
def seen (r : ResultState) : Byte × List Byte × Nibble := (r.status, r.frame, r.rCmd)

/-- The ASCII text "123456789". -/
def digits : List Byte := [0x31, 0x32, 0x33, 0x34, 0x35, 0x36, 0x37, 0x38, 0x39]

/-- "A7220042123456". -/
def body : List Byte := [0x41, 0x37, 0x32, 0x32, 0x30, 0x30, 0x34, 0x32, 0x31, 0x32, 0x33, 0x34, 0x35, 0x36]

/-- "YsA7220042123456\n". -/
def coverText : List Byte := [0x59, 0x73] ++ body ++ [0x0A]

/-- "0F0F0F0000". -/
def symbols : List Byte := [0x30, 0x46, 0x30, 0x46, 0x30, 0x46, 0x30, 0x30, 0x30, 0x30]

/-- "is0F0F0F0000FF\n". -/
def switchOn : List Byte := [0x69, 0x73] ++ symbols ++ [0x46, 0x46, 0x0A]

/-- "N0199E6282EC7AAAA0000719199". -/
def sensorText : List Byte :=
  [0x4E, 0x30, 0x31, 0x39, 0x39, 0x45, 0x36, 0x32, 0x38, 0x32, 0x45, 0x43, 0x37] ++
  [0x41, 0x41, 0x41, 0x41, 0x30, 0x30, 0x30, 0x30, 0x37, 0x31, 0x39, 0x31, 0x39, 0x39]

/-- The hardware's parameters with a value for the OPEN SWITCH_OFF_BITS. -/
def withOff (o : Config.SwitchOffBits) : Config.Params := { Config.hardware with switchOffBits := o }

/-- A property of the numbers a..b, from a check of each number up to b. -/
theorem between {a b : Nat} {f : Nat → Prop} (h : ∀ k : Fin (b + 1), a ≤ k.val → f k.val) :
    ∀ k, a ≤ k → k ≤ b → f k := fun k h1 h2 => h ⟨k, by omega⟩ h1

/-- A property of the numbers below b. -/
theorem below {b : Nat} {f : Nat → Prop} (h : ∀ k : Fin b, f k.val) : ∀ k, k < b → f k := fun k h1 => h ⟨k, h1⟩

/-! ### Ill-formed terms are refused -/

/-- OPC 0xA is reserved. -/
theorem test_wf_reserved_opc : CommandWord.wellFormed { mod := 0x0, opc := 0xA } = false := by decide

/-- An operation without modifier with MOD = 1. -/
theorem test_wf_modless_mod : CommandWord.wellFormed { mod := 0x1, opc := 0x0 } = false := by decide

/-- SWENC with MOD = 2; MOD = 1 is legal. -/
theorem test_wf_swenc_mod :
    CommandWord.wellFormed { mod := 0x2, opc := 0x4 } = false ∧ CommandWord.wellFormed { mod := 0x1, opc := 0x4 } = true := by
  decide

/-- CVENC is legal with any MOD. -/
theorem test_wf_cvenc_mod : CommandWord.wellFormed { mod := 0xF, opc := 0x6 } = true := by decide

/-- A 16-bit access. -/
theorem test_wf_wide :
    HostEvent.wellFormed (.wideRead 7 0x05) = false ∧ HostEvent.wellFormed (.wideWrite 7 0x05 0xFFFF) = false := by decide

/-- LDBUF of 33 bytes is refused, and has no expansion; 32 bytes are well formed. -/
theorem test_wf_ldbuf :
    HostLine.wellFormed (.ldbuf (List.replicate 33 0x30)) = false ∧
    expand State.reset (.ldbuf (List.replicate 33 0x30)) = none ∧
    HostLine.wellFormed (.ldbuf (List.replicate 32 0x30)) = true := by decide

/-- COVER_LEAD 'G' is no hex digit. -/
theorem test_wf_params :
    Config.Params.wellFormed { Config.hardware with coverLead := 0x47 } = false ∧ Config.hardware.wellFormed = true := by
  decide

/-! ### Words written out from 30_encoding.md: MOD in bits 7:4, OPC in bits 3:0 -/

theorem test_decode_nop : decode (0b0000#4 ++ 0b0000#4) = .ok .nop := by decide
theorem test_decode_crc8 : decode (0b0000#4 ++ 0b0001#4) = .ok .crc8 := by decide
theorem test_decode_xcs : decode (0b0000#4 ++ 0b0010#4) = .ok .xcs := by decide
theorem test_decode_cvcs : decode (0b0000#4 ++ 0b0011#4) = .ok .cvcs := by decide
theorem test_decode_swenc_off : decode (0b0000#4 ++ 0b0100#4) = .ok (.swenc .off) := by decide
theorem test_decode_swenc_on : decode (0b0001#4 ++ 0b0100#4) = .ok (.swenc .on) := by decide
theorem test_decode_swdec : decode (0b0000#4 ++ 0b0101#4) = .ok .swdec := by decide
theorem test_decode_cvenc_up : decode (0b0010#4 ++ 0b0110#4) = .ok (.cvenc (coverCode .up)) := by decide
theorem test_decode_cvenc_disable_sun : decode (0b1010#4 ++ 0b0110#4) = .ok (.cvenc (coverCode .disableSun)) := by decide
theorem test_decode_cvdec : decode (0b0000#4 ++ 0b0111#4) = .ok .cvdec := by decide
theorem test_decode_sndec : decode (0b0000#4 ++ 0b1000#4) = .ok .sndec := by decide
theorem test_decode_rcinc : decode (0b0000#4 ++ 0b1001#4) = .ok .rcinc := by decide

/-- Each group of illegal words, by name. -/
theorem test_decode_illegal :
    decode 0x0A = .error (.reservedOpc 0xA) ∧ decode 0x10 = .error (.modMustBeZero 0x0 0x1) ∧
    decode 0x24 = .error (.switchActionReserved 0x2) := by decide

/-- The host's reading of a table word. -/
theorem test_decode_table_word :
    decodeTableWord 8 0x14 = some (.swenc .on) ∧ decodeTableWord 8 0x0F = none ∧ decodeTableWord 8 0x114 = none := by decide

/-! ### Operations, by the vectors of 95_test_vectors.md section 2 -/

/-- NOP after results: all 0. -/
theorem test_nop :
    resultOf (exec .nop { State.reset with result := { ResultState.reset with rKey := 5 } }) = some ResultState.cleared := by
  decide

/-- Vectors CR6 and CR12. -/
theorem test_crc8 :
    resultOf (exec .crc8 (machine digits)) = some { ResultState.cleared with status := 0x10, rCrc := 0xA2 } := by
  decide +kernel

theorem test_crc8_too_long :
    resultOf (exec .crc8 { State.reset with input := { loaded [] with inLen := 33 } }) =
      some { ResultState.cleared with status := 0x04 } := by decide +kernel

/-- Vectors XC2 and XC10. -/
theorem test_xcs :
    resultOf (exec .xcs (machine digits)) = some { ResultState.cleared with status := 0x10, rCs := 0x2 } := by decide +kernel

theorem test_xcs_too_long :
    resultOf (exec .xcs { State.reset with input := { loaded [] with inLen := 40 } }) =
      some { ResultState.cleared with status := 0x04 } := by decide +kernel

/-- Vectors CS3 and CS4. -/
theorem test_cvcs_placeholder :
    resultOf (exec .cvcs (machine (body.set 3 0xFF))) = some { ResultState.cleared with status := 0x10, rCs := 0x2 } := by
  decide +kernel

theorem test_cvcs_length :
    resultOf (exec .cvcs (machine (body.take 13))) = some { ResultState.cleared with status := 0x04 } := by decide +kernel

/-- Vector SW1. -/
theorem test_swenc_on :
    (resultOf (exec (.swenc .on) (machine symbols))).map seen = some (0x10, switchOn, 1) := by decide +kernel

/-- Vectors SW2 and SW3: OFF under both values of the OPEN parameter. -/
theorem test_swenc_off :
    seen (swencOp (withOff .zeroF) .off (loaded symbols) ResultState.cleared) =
      (0x10, [0x69, 0x73] ++ symbols ++ [0x30, 0x46, 0x0A], 0) ∧
    seen (swencOp (withOff .fZero) .off (loaded symbols) ResultState.cleared) =
      (0x10, [0x69, 0x73] ++ symbols ++ [0x46, 0x30, 0x0A], 0) := by decide +kernel

/-- Section 2.5: a frame with "FF" gives the ten symbols back with action ON. -/
theorem test_swdec_on :
    (resultOf (exec .swdec (machine switchOn))).map seen = some (0x10, symbols, 1) := by decide +kernel

/-- Section 2.5: the other value's OFF bits are UnsupportedCommand. -/
theorem test_swdec_other_off :
    seen (swdecOp (withOff .zeroF) (loaded ([0x69, 0x73] ++ symbols ++ [0x46, 0x30, 0x0A])) ResultState.cleared) =
      (0x03, [], 0) := by decide +kernel

/-- Section 2.6: CVENC UP of key 7, rolling code 0x42, address 0x123456, and the successor it delivers. -/
theorem test_cvenc_up :
    (resultOf (exec (.cvenc 2) (cover 7 0x42 0x123456))).map (fun r => (seen r, r.rKey, r.rRc, r.rAddr, r.rCs)) =
      some ((0x10, coverText, 2), 8, 0x43, 0x123456, 2) := by decide +kernel

/-- Section 2.6: a rolling code above 0xFFFF is RangeError with no frame and no successor. -/
theorem test_cvenc_range :
    resultOf (exec (.cvenc 2) (cover 7 0x10000 0x123456)) = some { ResultState.cleared with status := 0x0A } := by
  decide +kernel

/-- Section 2.7: the frame back to its fields. -/
theorem test_cvdec :
    resultOf (exec .cvdec (machine coverText)) =
      some { ResultState.cleared with
        status := 0x10, rKey := 7, rCmd := 2, rRc := 0x42, rAddr := 0x123456, rCs := 2 } := by decide +kernel

/-- Section 2.7: a wrong checksum digit is ChecksumMismatch with the fields. -/
theorem test_cvdec_mismatch :
    resultOf (exec .cvdec (machine (coverText.set 5 0x33))) =
      some { ResultState.cleared with
        status := 0x16, rKey := 7, rCmd := 2, rRc := 0x42, rAddr := 0x123456, rCs := 2 } := by decide +kernel

/-- Vector S4: device 7, 22.8 degrees, 46 %, a new battery. -/
theorem test_sndec :
    resultOf (exec .sndec (machine sensorText)) =
      some { ResultState.cleared with
        status := 0x30, rCrc := 0xC7, rCrcRx := 0xC7, rDevId := 7, rTemp := 0x00E4, rHum := 0x2E, rSFlags := 0x3,
        rBatt := 100 } := by decide +kernel

/-- 43_sensor.md section 3: with the last trailer digit changed the CRC differs, and the reading is delivered all the same. -/
theorem test_sndec_mismatch :
    (resultOf (exec .sndec (machine (sensorText.set 12 0x38)))).map (fun r => (r.status, r.rCrc, r.rCrcRx, r.rTemp)) =
      some (0x16, 0xC7, 0xC8, 0x00E4) := by decide +kernel

/-- 42_cover.md section 3: both wraps of the successor. -/
theorem test_rcinc_wraps :
    resultOf (exec .rcinc (cover 0xF 0xFFFFFF 0xABCDEF)) =
      some { ResultState.cleared with status := 0x10, rKey := 0, rRc := 0, rAddr := 0xABCDEF } := by decide +kernel

/-! ### The port -/

/-- IN_LEN keeps bits 5:0, STATUS and reserved offsets ignore writes. -/
theorem test_masked_write :
    (State.reset.store 0x02 0xFF).input.inLen = 63 ∧ State.reset.store 0x01 0x55 = State.reset ∧
    State.reset.store 0x0B 0x55 = State.reset := by decide +kernel

/-- 24-bit registers are big-endian. -/
theorem test_big_endian : ((cover 0 0x123456 0).store 0x05 0xAB).input.argRc = 0xAB3456 := by decide +kernel

/-- The first step after reset runs the word the host writes to CMD: NOP clears STATUS. -/
theorem test_step_runs_word :
    (resultOf (step (State.reset.withFetchWord 8 0x00))).map (fun r => r.status) = some 0x00 ∧
    (resultOf (step (State.reset.withFetchWord 8 0x0F))).map (fun r => r.status) = some 0x09 := by decide +kernel

/-! ### Witnesses: a state and operands that meet all the hypotheses of an obligation together

Each theorem is named for its obligation. Where an obligation has several clauses, there is a witness for each, at the
boundary of its range. -/

/-- `exec` gives the same results whatever the answer is compared with: the hypothesis `exec i s = .next t` is met. -/
theorem witness_exec (i : Instr) (s : State) : ∃ t, exec i s = .next t := ⟨_, exec_eq i s⟩

/-- A state that differs from the machine just reset in one byte above LEN. -/
def dirty (l : List Byte) : State :=
  { machine l with input := { loaded l with inBuf := (loaded l).inBuf.set 31 0xFF } }

theorem witness_DecodeAndEncodeAgree :
    Instr.wellFormed (.cvenc 0xF) = true ∧ decode 0xF6 = .ok (.cvenc 0xF) := by decide

theorem witness_DecodedWordsMatchOneTableRow :
    decode 0x14 = .ok (.swenc .on) ∧ decode 0x24 = .error (.switchActionReserved 2) := by decide

theorem witness_IllegalWordsReportIllegalOp :
    illegalByRule 0x0A ∧ illegalByRule 0xFF ∧ illegalByRule 0x10 ∧ illegalByRule 0xF9 ∧ illegalByRule 0x24 ∧
    illegalByRule 0xF4 := by
  unfold illegalByRule; decide

theorem witness_StepRunsTheDecodedInstruction :
    (State.reset.withFetchWord 8 0xA6).pending = .write 0x00 0xA6 :: [] ∧ decode 0xA6 = .ok (.cvenc 0xA) ∧
    Instr.wellFormed (.cvenc 0xA) = true := by decide

/-- One offset of each of the three clauses, at both ends of each range. -/
theorem witness_HostWriteDoesOneOfFourThings :
    (∀ off ∈ ([0x02, 0x04, 0x0A, 0x20, 0x3F] : List Byte),
      off = 0x02 ∨ (0x04 ≤ off.toNat ∧ off.toNat ≤ 0x0A) ∨ (0x20 ≤ off.toNat ∧ off.toNat ≤ 0x3F)) ∧
    ∀ off ∈ ([0x01, 0x03, 0x0B, 0x1F, 0x40, 0xFF] : List Byte),
      off = 0x01 ∨ off = 0x03 ∨ (0x0B ≤ off.toNat ∧ off.toNat ≤ 0x1F) ∨ 0x40 ≤ off.toNat := by decide

theorem witness_HostReadReturnsTheRegister :
    (∀ off ∈ ([0x0B, 0x1D, 0x1F, 0x60, 0xFF] : List Byte),
      off = 0x0B ∨ (0x1D ≤ off.toNat ∧ off.toNat ≤ 0x1F) ∨ 0x60 ≤ off.toNat) ∧
    ∃ t, hostWrite 0x00 0xFF State.reset = .next t := ⟨by decide, _, hostWrite_cmd 0xFF State.reset⟩

theorem witness_AccessesAreIdempotent :
    (∃ t, perform (.read 0x01) (machine digits) = .next t) ∧
    (∃ t u, hostWrite 0x00 0x26 (cover 7 0x42 0x123456) = .next t ∧ hostWrite 0x00 0x26 t = .next u) ∧
    ∃ t u, hostWrite 0x02 0xFF State.reset = .next t ∧ hostWrite 0x02 0xFF t = .next u :=
  ⟨⟨_, rfl⟩, ⟨_, _, hostWrite_cmd _ _, hostWrite_cmd _ _⟩,
    ⟨_, _, hostWrite_other _ _ _ (by decide), hostWrite_other _ _ _ (by decide)⟩⟩

theorem witness_PlatformAddressReachesItsOffset : Config.portBase + 256 ≤ Config.portBase + 256 := Nat.le_refl _

theorem witness_NoOperationEverStops : ∃ t, hostWrite 0x00 0x0A State.reset = .next t := ⟨_, hostWrite_cmd _ _⟩

/-- A write changes the input state, and its offset is no read-only one. -/
theorem witness_OperationsLeaveTheInputState :
    (∃ t, exec .rcinc (cover 7 0x42 0x123456) = .next t) ∧
    (∃ t, hostWrite 0x00 0x09 (cover 7 0x42 0x123456) = .next t) ∧
    (∃ t, perform (.write 0x04 0x0F) State.reset = .next t ∧ t.input.argKey = 0xF ∧ t.input ≠ State.reset.input) ∧
    accessOf (portMap 0x04) ≠ .readOnly :=
  ⟨witness_exec _ _, ⟨_, hostWrite_cmd _ _⟩, ⟨State.reset.store 0x04 0x0F, hostWrite_other _ _ _ (by decide), by decide +kernel, by decide +kernel⟩, by decide⟩

theorem witness_NoResultSurvivesAnOperation :
    (∃ t t', execute 0x09 (cover 7 0x42 0x123456) = .next t ∧
      execute 0x09 { cover 7 0x42 0x123456 with result := ResultState.cleared } = .next t') ∧
    ∃ t, exec .nop State.reset = .next t :=
  ⟨⟨_, _, execute_eq _ _, execute_eq _ _⟩, witness_exec _ _⟩

/-- The two states differ: in a byte above LEN, and, for CVENC, in IN_LEN. -/
theorem witness_ResultsDependOnListedOperandsOnly :
    sameOperands .crc8 (machine digits).input (dirty digits).input ∧ machine digits ≠ dirty digits ∧
    sameOperands (.cvenc 1) State.reset.input { State.reset.input with inLen := 9 } ∧
    (∃ t, exec .crc8 (machine digits) = .next t) ∧ ∃ t, exec .crc8 (dirty digits) = .next t :=
  ⟨⟨rfl, below (by decide +kernel)⟩, by decide +kernel, ⟨rfl, rfl, rfl⟩, witness_exec _ _, witness_exec _ _⟩

theorem witness_OperationsRaiseTheirOwnCodes : ∃ t, exec .swdec (machine switchOn) = .next t := witness_exec _ _

theorem witness_NopClearsTheResults :
    ∃ t, hostWrite 0x00 0x00 State.reset = .next t ∧ t.result = ResultState.cleared :=
  ⟨_, hostWrite_cmd _ _, by decide +kernel⟩

theorem witness_Crc8ComputesTheCrc :
    (machine (List.replicate 32 0)).input.len ≤ 32 ∧ 32 ≤ (machine (List.replicate 32 0)).input.len ∧
    32 < ({ State.reset.input with inLen := 33 } : InputState).len := by decide +kernel

theorem witness_CrcLaws : ([0x01, 0x80] : List Byte).length = ([0xFF, 0x00] : List Byte).length := rfl

theorem witness_XcsComputesTheChecksum :
    (machine (List.replicate 32 0)).input.len ≤ 32 ∧ 32 < ({ State.reset.input with inLen := 33 } : InputState).len ∧
    (0x33 : Byte).extractLsb' 0 4 = (0x33 : Byte).extractLsb' 4 4 ∧
    ([0x41, 0x42] : List Byte).Perm [0x42, 0x41] := by decide +kernel

theorem witness_CharacterContributions : 9 < 10 ∧ 10 < 16 ∧ 10 ≤ 10 := by decide

theorem witness_CvcsSumsTheZeroedBody :
    (machine body).input.len = 14 ∧ (machine (body.take 13)).input.len ≠ 14 ∧
    (machine (body ++ [0x30])).input.len ≠ 14 := by decide +kernel

theorem witness_ChecksumIsIdempotent :
    ((machine body).input.len = 14 ∧ (machine (body.set 3 0x46)).input.len = 14 ∧
      ∀ k, k < 14 → k ≠ 3 → (machine (body.set 3 0x46)).input.inByte k = (machine body).input.inByte k) ∧
    ∃ t, exec (.cvenc 2) (cover 7 0x42 0x123456) = .next t ∧ t.result.outLen = 17 ∧ (machine coverText).input.inLen = 17 ∧
      ∀ k : Fin 32, k.val < 17 → (machine coverText).input.inBuf[k] = t.result.outBuf[k] :=
  ⟨⟨by decide +kernel, by decide +kernel, below (by decide +kernel)⟩, _, rfl, by decide +kernel⟩

theorem witness_RcincDeliversTheSuccessor :
    (cover 0 0xFFFFFF 0).input.argRc = 0xFFFFFF ∧ (cover 0xF 0 0).input.argKey = 0xF ∧
    (cover 0 0x00FFFF 0).input.argRc = 0x00FFFF ∧
    ((cover 7 0x42 0x123456).input.argKey = 7 ∧ (cover 7 0x42 0x123456).input.argRc = 0x000042 ∧
      (cover 7 0x42 0x123456).input.argAddr = 0x123456) := by decide

theorem witness_SuccessorWrapsAround : 0 < 2 ^ 24 ∧ 2 ^ 24 - 1 < 2 ^ 24 ∧ 0 ≠ 2 ^ 24 - 1 := by decide

/-- Both ends of the command codes, and the largest rolling code that fits. -/
theorem witness_CvencPacksTheFrame :
    ∀ code ∈ ([1, 10] : List Nibble), 1 ≤ code.toNat ∧ code.toNat ≤ 10 ∧ (cover 0xF 0xFFFF 0).input.argRc.toNat ≤ 0xFFFF := by
  decide

theorem witness_CvencFailureDeliversNothing :
    (∀ code ∈ ([0, 11, 15] : List Nibble), code = 0 ∨ 11 ≤ code.toNat) ∧
    ∀ code ∈ ([1, 10] : List Nibble), 1 ≤ code.toNat ∧ code.toNat ≤ 10 ∧ 0xFFFF < (cover 0 0x10000 0).input.argRc.toNat := by
  decide

theorem witness_RollingCodeFieldPolicies :
    0xFFFF < (cover 0 0x10000 0).input.argRc.toNat ∧ Config.hardware.rcFieldPolicy = .refuse ∧
    ({ Config.hardware with rcFieldPolicy := .truncate16 } : Config.Params).rcFieldPolicy = .truncate16 ∧
    (cover 0 0xFFFF 0).input.argRc.toNat ≤ 0xFFFF ∧ 1 ≤ (10 : Nibble).toNat ∧ (10 : Nibble).toNat ≤ 10 := by
  refine ⟨?_, rfl, rfl, ?_, ?_, ?_⟩ <;> decide

theorem witness_CoverRoundTrip :
    Config.hardware.wellFormed = true ∧
    statusCode (cvencOp Config.hardware 2 (cover 7 0x42 0x123456).input ResultState.cleared).status = codeNibble .ok ∧
    (loaded coverText).inLen = (cvencOp Config.hardware 2 (cover 7 0x42 0x123456).input ResultState.cleared).outLen ∧
    ∀ k : Fin 32, k.val < 17 →
      (loaded coverText).inBuf[k] =
        (cvencOp Config.hardware 2 (cover 7 0x42 0x123456).input ResultState.cleared).outBuf[k] := by decide +kernel

/-- The frame around a Cover body and its hex digits. -/
def coverFramedInput (i : InputState) : Prop :=
  i.len = 17 ∧ i.inByte 0 = 0x59 ∧ i.inByte 1 = 0x73 ∧ i.inByte 16 = 0x0A ∧
  ∀ k, 2 ≤ k → k ≤ 15 → ishex (i.inByte k) = true

theorem witness_CvdecDeliversTheFields :
    coverFramedInput (machine coverText).input ∧ (machine coverText).input.inByte 2 = 0x41 ∧
    1 ≤ hexval ((machine coverText).input.inByte 4) ∧ hexval ((machine coverText).input.inByte 4) ≤ 10 :=
  ⟨⟨by decide +kernel, by decide +kernel, by decide +kernel, by decide +kernel, between (by decide +kernel)⟩,
    by decide +kernel, by decide +kernel, by decide +kernel⟩

/-- Not framed; framed with lead 'B'; framed with lead 'A' and command digit 0, and 11. -/
theorem witness_CvdecChecksInOrder :
    ¬ coverFramedInput (machine (coverText.take 16)).input ∧
    (coverFramedInput (machine (coverText.set 2 0x42)).input ∧
      (machine (coverText.set 2 0x42)).input.inByte 2 ≠ 0x41) ∧
    (coverFramedInput (machine (coverText.set 4 0x30)).input ∧ (machine (coverText.set 4 0x30)).input.inByte 2 = 0x41 ∧
      hexval ((machine (coverText.set 4 0x30)).input.inByte 4) = 0) ∧
    (coverFramedInput (machine (coverText.set 4 0x42)).input ∧ (machine (coverText.set 4 0x42)).input.inByte 2 = 0x41 ∧
      hexval ((machine (coverText.set 4 0x42)).input.inByte 4) = 11) :=
  ⟨fun h => absurd h.1 (by decide +kernel),
    ⟨⟨by decide +kernel, by decide +kernel, by decide +kernel, by decide +kernel, between (by decide +kernel)⟩,
      by decide +kernel⟩,
    ⟨⟨by decide +kernel, by decide +kernel, by decide +kernel, by decide +kernel, between (by decide +kernel)⟩,
      by decide +kernel⟩,
    ⟨⟨by decide +kernel, by decide +kernel, by decide +kernel, by decide +kernel, between (by decide +kernel)⟩,
      by decide +kernel⟩⟩

theorem witness_SwencPacksTheFrame :
    ((machine symbols).input.len = 10 ∧
      ∀ k, k < 10 → (machine symbols).input.inByte k = 0x30 ∨ (machine symbols).input.inByte k = 0x46) ∧
    (machine (symbols.take 9)).input.len ≠ 10 ∧
    ∃ k, k < 10 ∧ (machine (symbols.set 9 0x66)).input.inByte k ≠ 0x30 ∧ (machine (symbols.set 9 0x66)).input.inByte k ≠ 0x46 :=
  ⟨⟨by decide +kernel, below (by decide +kernel)⟩, by decide +kernel, 9, by decide +kernel⟩

/-- The literal bytes of a Switch frame, and its ten symbols. -/
def switchFramedInput (i : InputState) : Prop :=
  i.len = 15 ∧ i.inByte 0 = 0x69 ∧ i.inByte 1 = 0x73 ∧ i.inByte 14 = 0x0A
def switchSymbols (i : InputState) : Prop := ∀ k, 2 ≤ k → k ≤ 11 → i.inByte k = 0x30 ∨ i.inByte k = 0x46

/-- For both actions; OFF on an input made of the OPEN bits themselves, whichever they are. -/
theorem witness_SwdecDeliversTheAddress :
    (switchFramedInput (machine switchOn).input ∧ switchSymbols (machine switchOn).input ∧
      (machine switchOn).input.slice 12 2 = commandBits Config.hardware .on) ∧
    ∃ s : State, switchFramedInput s.input ∧ switchSymbols s.input ∧
      s.input.slice 12 2 = commandBits Config.hardware .off := by
  refine ⟨⟨by unfold switchFramedInput; decide +kernel, between (by decide +kernel), by decide +kernel⟩,
    machine ([0x69, 0x73] ++ symbols ++ offBits Config.switchOffBits ++ [0x0A]), ?_⟩
  show _ ∧ _ ∧ _ = offBits Config.switchOffBits
  generalize Config.switchOffBits = o
  cases o <;>
    exact ⟨by unfold switchFramedInput; decide +kernel, between (by decide +kernel), by decide +kernel⟩

/-- Not framed; framed with an invalid symbol; framed and valid with commandbits "00". -/
theorem witness_SwdecChecksInOrder :
    ¬ switchFramedInput (loaded symbols) ∧
    (switchFramedInput (loaded (switchOn.set 11 0x31)) ∧ ¬ switchSymbols (loaded (switchOn.set 11 0x31))) ∧
    (switchFramedInput (loaded ([0x69, 0x73] ++ symbols ++ [0x30, 0x30, 0x0A])) ∧
      switchSymbols (loaded ([0x69, 0x73] ++ symbols ++ [0x30, 0x30, 0x0A])) ∧
      (loaded ([0x69, 0x73] ++ symbols ++ [0x30, 0x30, 0x0A])).slice 12 2 ≠ [0x46, 0x46] ∧
      ∀ o, (loaded ([0x69, 0x73] ++ symbols ++ [0x30, 0x30, 0x0A])).slice 12 2 ≠ offBits o) := by
  refine ⟨by unfold switchFramedInput; decide +kernel,
    ⟨by unfold switchFramedInput; decide +kernel, fun h => absurd (h 11 (by omega) (by omega)) (by decide +kernel)⟩,
    by unfold switchFramedInput; decide +kernel, between (by decide +kernel), by decide +kernel, fun o => ?_⟩
  cases o <;> decide +kernel

theorem witness_SwitchRoundTrip :
    statusCode (swencOp (withOff .zeroF) .on (loaded symbols) ResultState.cleared).status = codeNibble .ok ∧
    (loaded switchOn).inLen = (swencOp (withOff .zeroF) .on (loaded symbols) ResultState.cleared).outLen ∧
    (∀ k : Fin 32, k.val < 15 →
      (loaded switchOn).inBuf[k] = (swencOp (withOff .zeroF) .on (loaded symbols) ResultState.cleared).outBuf[k]) ∧
    symbols.length = 10 := by decide +kernel

/-- A Sensor input that passes every syntax check. -/
theorem witness_SndecDeliversTheReading :
    (machine sensorText).input.len = 27 ∧ (machine sensorText).input.inByte 3 = 0x39 ∧
    (∀ k, 4 ≤ k → k ≤ 12 → ishex ((machine sensorText).input.inByte k) = true) ∧
    ∀ k, 6 ≤ k → k ≤ 8 → isdec ((machine sensorText).input.inByte k) = true :=
  ⟨by decide +kernel, by decide +kernel, between (by decide +kernel), between (by decide +kernel)⟩

/-- A wrong length; a wrong marker; a trailer digit '*'; a temperature digit 'E' among hex digits. -/
theorem witness_SndecChecksInOrder :
    (machine (sensorText.take 26)).input.len ≠ 27 ∧
    ((machine (sensorText.set 3 0x38)).input.len = 27 ∧ (machine (sensorText.set 3 0x38)).input.inByte 3 ≠ 0x39) ∧
    ((machine (sensorText.set 12 0x2A)).input.len = 27 ∧ (machine (sensorText.set 12 0x2A)).input.inByte 3 = 0x39 ∧
      ∃ k, 4 ≤ k ∧ k ≤ 12 ∧ ishex ((machine (sensorText.set 12 0x2A)).input.inByte k) = false) ∧
    ((machine (sensorText.set 6 0x45)).input.len = 27 ∧ (machine (sensorText.set 6 0x45)).input.inByte 3 = 0x39 ∧
      (∀ k, 4 ≤ k → k ≤ 12 → ishex ((machine (sensorText.set 6 0x45)).input.inByte k) = true) ∧
      ∃ k, 6 ≤ k ∧ k ≤ 8 ∧ isdec ((machine (sensorText.set 6 0x45)).input.inByte k) = false) :=
  ⟨by decide +kernel, by decide +kernel, ⟨by decide +kernel, by decide +kernel, 12, by decide +kernel⟩,
    by decide +kernel, by decide +kernel, between (by decide +kernel), 6, by decide +kernel⟩

/-- Two lines with different first and last characters. -/
theorem witness_SndecIgnoresTheRestOfTheLine :
    (machine sensorText).input.len = 27 ∧ (machine ((sensorText.set 0 0x58).set 26 0x58)).input.len = 27 ∧
    (∀ k, 3 ≤ k → k ≤ 12 →
      (machine ((sensorText.set 0 0x58).set 26 0x58)).input.inByte k = (machine sensorText).input.inByte k) ∧
    machine sensorText ≠ machine ((sensorText.set 0 0x58).set 26 0x58) :=
  ⟨by decide +kernel, by decide +kernel, between (by decide +kernel), by decide +kernel⟩

theorem witness_SndecReadingIsExact :
    ∃ t, exec .sndec (machine sensorText) = .next t ∧ statusFv t.result.status = true :=
  ⟨_, rfl, by decide +kernel⟩

theorem witness_WeakFlagByMode : 15 < 16 := by decide

theorem witness_CrcPolicyDecidesDelivery :
    (loaded (sensorText.set 12 0x38)).len = 27 ∧ (loaded (sensorText.set 12 0x38)).inByte 3 = 0x39 ∧
    (∀ k, 4 ≤ k → k ≤ 12 → ishex ((loaded (sensorText.set 12 0x38)).inByte k) = true) ∧
    (∀ k, 6 ≤ k → k ≤ 8 → isdec ((loaded (sensorText.set 12 0x38)).inByte k) = true) ∧
    crc8f (sensorPayload (loaded (sensorText.set 12 0x38))) ≠ sensorTrailer (loaded (sensorText.set 12 0x38)) ∧
    ({ Config.hardware with crcPolicy := .reject } : Config.Params).crcPolicy = .reject ∧
    Config.hardware.crcPolicy = .logOnly :=
  ⟨by decide +kernel, by decide +kernel, between (by decide +kernel), between (by decide +kernel), by decide +kernel,
    rfl, rfl⟩

/-- The known-bad frame loaded. -/
theorem witness_KnownBadFrameIsFlagged :
    ∃ i : InputState, i.len = 27 ∧ i.slice 0 27 =
      [0x4E, 0x30, 0x31, 0x39, 0x45, 0x43, 0x45, 0x33, 0x33, 0x33, 0x39, 0x38, 0x43,
       0x41, 0x41, 0x41, 0x41, 0x30, 0x30, 0x30, 0x30, 0x41, 0x31, 0x37, 0x43, 0x36, 0x39] :=
  ⟨loaded [0x4E, 0x30, 0x31, 0x39, 0x45, 0x43, 0x45, 0x33, 0x33, 0x33, 0x39, 0x38, 0x43,
       0x41, 0x41, 0x41, 0x41, 0x30, 0x30, 0x30, 0x30, 0x41, 0x31, 0x37, 0x43, 0x36, 0x39], by decide +kernel⟩

theorem witness_LdbufLoadsTheBuffer : (List.replicate 32 (0x30 : Byte)).length ≤ 32 := by decide

/-- The invariant holds in the state after reset with an access pending, and the step from it ends in a next state. -/
theorem witness_EveryStepKeepsTheResultRanges :
    resultInv (State.reset.withFetchWord 8 0x26) ∧ ∃ t, step (State.reset.withFetchWord 8 0x26) = .next t := by
  refine ⟨?_, _, hostWrite_cmd 0x26 State.reset⟩
  unfold resultInv statusLegal outputShaped rangesHeld fieldsValidOrZero crcVerdictTrue noFrame noCoverState noReading
  decide +kernel

theorem witness_EveryStepKeepsTheRecord :
    recordAgrees (State.reset.withFetchWord 8 0x26) ∧ ∃ t, step (State.reset.withFetchWord 8 0x26) = .next t :=
  ⟨⟨rfl, rfl⟩, _, hostWrite_cmd 0x26 State.reset⟩

end Sys2Proof.Tests
end

section
/-! SUPPORT. The bytes of the port under a store (20_memory.md rules R52, R53), and the statements about single host
accesses that rest on them. -/

namespace Sys2Proof.Machine

/-! ### One byte of the port after a store to it -/

/-- The bits of its datum that a stored byte keeps (rule R53). -/
def usedBits : PortByte → Byte
  | .inLen  => 0x3F
  | .argKey => 0x0F
  | _       => 0xFF

theorem setWidth_extractLsb'_six (v : Byte) : (v.extractLsb' 0 6).setWidth 8 = v &&& 0x3F := by
  revert v; decide

theorem setWidth_extractLsb'_four (v : Byte) : (v.extractLsb' 0 4).setWidth 8 = v &&& 0x0F := by
  revert v; decide

theorem and_allUsed (v : Byte) : v &&& 0xFF = v := BitVec.and_allOnes

/-- A read/write byte reads back as the used bits of the datum stored there. -/
theorem readByte_storeByte_same (i : InputState) (r : ResultState) (v : Byte) (p : PortByte)
    (h : accessOf p = .readWrite) : readByte (storeByte i v p) r p = v &&& usedBits p := by
  cases p with
  | cmd => exact (and_allUsed v).symm
  | inLen => exact setWidth_extractLsb'_six v
  | argKey => exact setWidth_extractLsb'_four v
  | argRc k => simp only [readByte, storeByte, byteOf24_setByteOf24, if_pos, usedBits, and_allUsed]
  | argAddr k => simp only [readByte, storeByte, byteOf24_setByteOf24, if_pos, usedBits, and_allUsed]
  | inBuf k => exact (Vector.getElem_set_self k.isLt).trans (and_allUsed v).symm
  | _ => cases h

/-- A read-only or reserved byte takes no datum. -/
theorem storeByte_of_not_readWrite (i : InputState) (v : Byte) (p : PortByte) (h : accessOf p ≠ .readWrite) :
    storeByte i v p = i := by
  cases p with
  | cmd | inLen | argKey | argRc k | argAddr k | inBuf k => exact absurd rfl h
  | _ => rfl

/-! ### The read/write offsets of the map -/

/-- The offset where a read/write byte of the port stands (rule R22); of the other bytes nothing is asked. -/
def writeOffset : PortByte → Byte
  | .cmd       => 0x00
  | .inLen     => 0x02
  | .argKey    => 0x04
  | .argRc k   => 0x05 + BitVec.ofNat 8 k.val
  | .argAddr k => 0x08 + BitVec.ofNat 8 k.val
  | .inBuf k   => 0x20 + BitVec.ofNat 8 k.val
  | _          => 0x00

/-- The read/write offsets of rule R22: CMD, and the four groups of registers and the buffer that only store. -/
theorem accessOf_portMap_readWrite (off : Byte) :
    accessOf (portMap off) = .readWrite ↔
      off = 0x00 ∨ off = 0x02 ∨ (0x04 ≤ off.toNat ∧ off.toNat ≤ 0x0A) ∨ (0x20 ≤ off.toNat ∧ off.toNat ≤ 0x3F) := by
  revert off; decide

theorem usedBits_portMap (off : Byte) :
    usedBits (portMap off) = if off = 0x02 then 0x3F else if off = 0x04 then 0x0F else 0xFF := by
  revert off; decide

theorem writeOffset_portMap (off : Byte) (h : accessOf (portMap off) = .readWrite) :
    writeOffset (portMap off) = off := by
  revert off; decide

/-- No other offset reaches the byte that stands at a read/write offset. -/
theorem portMap_ne_of_readWrite {off o : Byte} (h : accessOf (portMap off) = .readWrite) (ho : o ≠ off) :
    portMap o ≠ portMap off := by
  intro hmap
  have hacc : accessOf (portMap o) = .readWrite := by rw [hmap, h]
  exact ho <| calc
    o = writeOffset (portMap o)   := (writeOffset_portMap o hacc).symm
    _ = writeOffset (portMap off) := by rw [hmap]
    _ = off                       := writeOffset_portMap off h

/-! ### The port after a store -/

theorem hostRead_store_same (s : State) (off v : Byte) (h : accessOf (portMap off) = .readWrite) :
    hostRead (s.store off v) off = v &&& usedBits (portMap off) :=
  readByte_storeByte_same s.input s.result v (portMap off) h

theorem hostRead_store_other (s : State) (off v o : Byte) (h : accessOf (portMap off) = .readWrite) (ho : o ≠ off) :
    hostRead (s.store off v) o = hostRead s o :=
  readByte_storeByte s.input s.result v (portMap off) (portMap o) (portMap_ne_of_readWrite h ho)

theorem store_of_not_readWrite (s : State) (off v : Byte) (h : accessOf (portMap off) ≠ .readWrite) :
    s.store off v = s := by
  rw [State.store, storeByte_of_not_readWrite s.input v (portMap off) h]

/-! ### The statements -/

/-- Settles O8: CMD by what its write and its operation compute, the other offsets by the access rights of the map. -/
theorem hostWriteDoesOneOfFourThings : Obligations.HostWriteDoesOneOfFourThings := by
  intro off v s
  refine ⟨?cmd, ?stored, ?ignored⟩
  case cmd =>
    rintro rfl
    exact ⟨_, _, execute_eq v _, hostWrite_cmd v s, rfl, rfl, rfl⟩
  case stored =>
    intro hoff
    have hrw : accessOf (portMap off) = .readWrite := (accessOf_portMap_readWrite off).2 (.inr hoff)
    have hne : off ≠ 0x00 := by rintro rfl; revert hoff; decide
    refine ⟨s.store off v, hostWrite_other off v s hne, ?_, fun o => hostRead_store_other s off v o hrw,
      store_result s off v, store_pending s off v, store_history s off v⟩
    rw [hostRead_store_same s off v hrw, usedBits_portMap, apply_ite (v &&& ·), apply_ite (v &&& ·), and_allUsed]
  case ignored =>
    intro hoff
    have hrw : accessOf (portMap off) ≠ .readWrite := by
      rw [ne_eq, accessOf_portMap_readWrite]; bv_omega
    have hne : off ≠ 0x00 := by rintro rfl; exact hrw (by decide)
    rw [hostWrite_other off v s hne, store_of_not_readWrite s off v hrw]

/-- No wide access is a well-formed host action (rule R55), whatever its width, offset and datum. -/
theorem wide_not_wellFormed (extra : Nat) (off : Byte) (v : Nat) :
    (HostEvent.wideRead extra off).wellFormed = false ∧ (HostEvent.wideWrite extra off v).wellFormed = false :=
  ⟨rfl, rfl⟩

/-- A wide read stops before it reaches the port. -/
theorem perform_wideRead (extra : Nat) (off : Byte) (s : State) :
    perform (.wideRead extra off) s = .refused (.wideAccess (9 + extra)) := rfl

/-- A wide write stops before it reaches the port. -/
theorem perform_wideWrite (extra : Nat) (off : Byte) (v : Nat) (s : State) :
    perform (.wideWrite extra off v) s = .refused (.wideAccess (9 + extra)) := rfl

/-- Settles O11, by the arms of `perform` and of the check for the two wide accesses. -/
theorem wideAccessIsRefusedByName : Obligations.WideAccessIsRefusedByName := by
  intro extra off v s
  obtain ⟨hread, hwrite⟩ := wide_not_wellFormed extra off v
  exact ⟨hread, hwrite, perform_wideRead extra off s, perform_wideWrite extra off v s⟩

end Sys2Proof.Machine
end

section
/-! SUPPORT. The decoder of 30_encoding.md rule R79 row by row and group by group, and the statements about legal and
illegal command words that rest on it. -/

namespace Sys2Proof

open Machine

/-! ### The decoder on the two fields -/

theorem modOf_append (m o : Nibble) : modOf (m ++ o) = m := by
  revert m o; decide

theorem opcOf_append (m o : Nibble) : opcOf (m ++ o) = o := by
  revert m o; decide

theorem decode_append (m o : Nibble) : decode (m ++ o) = decodeFields { mod := m, opc := o } := by
  rw [decode, modOf_append, opcOf_append]

/-- An operation without modifier decodes with MOD = 0 and no other. -/
theorem decodeModless_toOption (c : CommandWord) (i : Instr) :
    (decodeModless c i).toOption = if c.mod = 0 then some i else none := by
  unfold decodeModless
  split <;> rfl

/-- SWENC's action is bit 0 of MOD, where MOD is at most 1. -/
theorem decodeSwitch_toOption (c : CommandWord) :
    (decodeSwitch c).toOption =
      if c.mod.toNat ≤ 1 then some (.swenc (if c.mod.getLsbD 0 then .on else .off)) else none := by
  obtain ⟨m, o⟩ := c
  revert m o; decide

theorem decodeFields_reserved (c : CommandWord) (h : 0xA ≤ c.opc.toNat) :
    decodeFields c = .error (.reservedOpc c.opc) := by
  unfold decodeFields
  split
  any_goals omega
  rfl

/-- OPC names one of the ten operations, or is reserved (rule R72). -/
theorem opc_cases (o : Nibble) :
    o = 0x0 ∨ o = 0x1 ∨ o = 0x2 ∨ o = 0x3 ∨ o = 0x4 ∨ o = 0x5 ∨ o = 0x6 ∨ o = 0x7 ∨ o = 0x8 ∨ o = 0x9 ∨
      0xA ≤ o.toNat := by
  revert o; decide

/-- Settles O3, by the row of the rule that OPC names. -/
theorem decoderFollowsItsTable : Obligations.DecoderFollowsItsTable := by
  intro m o
  rw [decode_append]
  rcases opc_cases o with rfl | rfl | rfl | rfl | rfl | rfl | rfl | rfl | rfl | rfl | hreserved
  · exact decodeModless_toOption ⟨m, 0x0⟩ .nop
  · exact decodeModless_toOption ⟨m, 0x1⟩ .crc8
  · exact decodeModless_toOption ⟨m, 0x2⟩ .xcs
  · exact decodeModless_toOption ⟨m, 0x3⟩ .cvcs
  · exact decodeSwitch_toOption ⟨m, 0x4⟩
  · exact decodeModless_toOption ⟨m, 0x5⟩ .swdec
  · rfl
  · exact decodeModless_toOption ⟨m, 0x7⟩ .cvdec
  · exact decodeModless_toOption ⟨m, 0x8⟩ .sndec
  · exact decodeModless_toOption ⟨m, 0x9⟩ .rcinc
  · have hne (k : Nibble) (hk : k.toNat < 0xA) : o ≠ k := by rintro rfl; omega
    rw [decodeFields_reserved ⟨m, o⟩ hreserved]
    simp [hne, Except.toOption]

/-! ### The words that do not decode -/

theorem exists_error_iff_toOption {ε α : Type} (x : Except ε α) : (∃ e, x = .error e) ↔ x.toOption = none := by
  cases x <;> simp [Except.toOption]

theorem decodeModless_error_iff (c : CommandWord) (i : Instr) : (∃ e, decodeModless c i = .error e) ↔ c.mod ≠ 0 := by
  rw [exists_error_iff_toOption, decodeModless_toOption]
  simp

theorem decodeSwitch_error_iff (c : CommandWord) : (∃ e, decodeSwitch c = .error e) ↔ 2 ≤ c.mod.toNat := by
  rw [exists_error_iff_toOption, decodeSwitch_toOption]
  simp [Nat.succ_le_iff]

/-- The OPC values of the eight operations without modifier, as rule R77 lists them. -/
def modlessOpcs : List Nibble := [0x0, 0x1, 0x2, 0x3, 0x5, 0x7, 0x8, 0x9]

theorem decodeFields_modless (m : Nibble) {o : Nibble} (h : o ∈ modlessOpcs) :
    ∃ i, decodeFields ⟨m, o⟩ = decodeModless ⟨m, o⟩ i := by
  fin_cases h
  exacts [⟨.nop, rfl⟩, ⟨.crc8, rfl⟩, ⟨.xcs, rfl⟩, ⟨.cvcs, rfl⟩, ⟨.swdec, rfl⟩, ⟨.cvdec, rfl⟩, ⟨.sndec, rfl⟩,
    ⟨.rcinc, rfl⟩]

theorem decodeFields_modless_error_iff (m : Nibble) {o : Nibble} (h : o ∈ modlessOpcs) :
    (∃ e, decodeFields ⟨m, o⟩ = .error e) ↔ m ≠ 0 := by
  obtain ⟨i, hi⟩ := decodeFields_modless m h
  rw [hi, decodeModless_error_iff]

theorem decodeFields_switch_error_iff (m : Nibble) : (∃ e, decodeFields ⟨m, 0x4⟩ = .error e) ↔ 2 ≤ m.toNat :=
  decodeSwitch_error_iff ⟨m, 0x4⟩

/-- CVENC takes any MOD (rule R73). -/
theorem decodeFields_cvenc (m : Nibble) : decodeFields ⟨m, 0x6⟩ = .ok (.cvenc m) := rfl

/-- The groups of OPC values that rules R73 and R77 tell apart. -/
theorem opc_groups (o : Nibble) : 0xA ≤ o.toNat ∨ o ∈ modlessOpcs ∨ o = 0x4 ∨ o = 0x6 := by
  revert o; decide

/-- Rule R77 lists the words that do not decode: in each group of OPC values its condition on MOD is the decoder's. -/
theorem illegalByRule_iff_error (w : Byte) : illegalByRule w ↔ ∃ e, decode w = .error e := by
  unfold illegalByRule decode
  generalize modOf w = m, opcOf w = o
  constructor
  · rintro (hreserved | ⟨hmodless, hmod⟩ | ⟨rfl, hmod⟩)
    · exact ⟨_, decodeFields_reserved ⟨m, o⟩ hreserved⟩
    · exact (decodeFields_modless_error_iff m hmodless).2 hmod
    · exact (decodeFields_switch_error_iff m).2 hmod
  · intro herror
    rcases opc_groups o with hreserved | hmodless | rfl | rfl
    · exact .inl hreserved
    · exact .inr (.inl ⟨hmodless, (decodeFields_modless_error_iff m hmodless).1 herror⟩)
    · exact .inr (.inr ⟨rfl, (decodeFields_switch_error_iff m).1 herror⟩)
    · obtain ⟨e, he⟩ := herror
      rw [decodeFields_cvenc] at he
      cases he

/-- The operation of a word that does not decode leaves IllegalOp with FV = 0 and nothing else (rule R94). -/
theorem opOfWord_error {w : Byte} {e : DecodeError} (h : decode w = .error e) (i : InputState) :
    opOfWord w i ResultState.cleared = { ResultState.cleared with status := 0x09 } := by
  unfold opOfWord
  rw [h]
  exact finish_cleared .illegalOp

/-- A write of a word that does not decode ends in a next state with the word stored and IllegalOp reported. -/
theorem hostWrite_cmd_error {w : Byte} {e : DecodeError} (h : decode w = .error e) (s : State) :
    ∃ t, hostWrite 0x00 w s = .next t ∧ t.input = { s.input with cmd := w } ∧
      t.result = { ResultState.cleared with status := 0x09 } ∧ t.pending = s.pending :=
  ⟨_, hostWrite_cmd w s, rfl, opOfWord_error h _, rfl⟩

/-! ### Counting command words by their fields -/

/-- The word numbered 16 m + o has the fields m and o (rule R71); a MOD above 15 wraps. -/
theorem ofNat_eq_append (m : Nat) {o : Nat} (ho : o < 16) :
    BitVec.ofNat 8 (16 * m + o) = BitVec.ofNat 4 m ++ BitVec.ofNat 4 o := by
  apply BitVec.eq_of_toNat_eq
  rw [BitVec.toNat_append, ← Nat.shiftLeft_add_eq_or_of_lt (BitVec.isLt _), Nat.shiftLeft_eq]
  simp only [BitVec.toNat_ofNat]
  omega

/-- The words below 16 k that meet a condition on their fields, counted for each of the k values of MOD. -/
theorem countP_fields (p : Nibble → Nibble → Bool) (k : Nat) :
    (List.range (16 * k)).countP (fun n => p (modOf (BitVec.ofNat 8 n)) (opcOf (BitVec.ofNat 8 n))) =
      ((List.range k).map fun m => (List.range 16).countP fun o => p (BitVec.ofNat 4 m) (BitVec.ofNat 4 o)).sum := by
  induction k with
  | zero => rfl
  | succ k ih =>
    have hrow : ∀ o ∈ List.range 16,
        (p (modOf (BitVec.ofNat 8 (16 * k + o))) (opcOf (BitVec.ofNat 8 (16 * k + o))) = true ↔
          p (BitVec.ofNat 4 k) (BitVec.ofNat 4 o) = true) := by
      intro o ho
      rw [ofNat_eq_append k (List.mem_range.1 ho), modOf_append, opcOf_append]
    rw [Nat.mul_succ, List.range_add, List.countP_append, List.countP_map, ih, List.sum_range_succ]
    exact congrArg _ (List.countP_congr hrow)

/-- Settles O6: the effect by the decoder's refusal, which is the rule's three groups, and the counts row by row of MOD. -/
theorem illegalWordsReportIllegalOp : Obligations.IllegalWordsReportIllegalOp := by
  refine ⟨?effect, illegalByRule_iff_error, ?reserved, ?modless, ?switch, ?all⟩
  case effect =>
    intro w s hillegal
    obtain ⟨e, he⟩ := (illegalByRule_iff_error w).1 hillegal
    exact hostWrite_cmd_error he s
  case reserved => exact (countP_fields (fun _ o => decide (0xA ≤ o.toNat)) 16).trans (by decide)
  case modless =>
    exact (countP_fields (fun m o => decide (o ∈ modlessOpcs) && decide (m ≠ 0)) 16).trans (by decide)
  case switch => exact (countP_fields (fun m o => decide (o = 0x4) && decide (2 ≤ m.toNat)) 16).trans (by decide)
  case all => exact (countP_fields (fun m o => (decodeFields ⟨m, o⟩).toOption.isNone) 16).trans (by decide)

end Sys2Proof
end

section
/-! SUPPORT. The fields of a decoded word (30_encoding.md rules R71, R79), and the word of NOP. -/

namespace Sys2Proof

/-- A command word is its two fields (rule R71). -/
theorem exists_eq_append (w : Byte) : ∃ m o : Nibble, w = m ++ o := by
  refine ⟨BitVec.ofNat 4 (w.toNat / 16), BitVec.ofNat 4 (w.toNat % 16), ?_⟩
  rw [← ofNat_eq_append _ (Nat.mod_lt _ (by decide)), Nat.div_add_mod, BitVec.ofNat_toNat, BitVec.setWidth_eq]

theorem decodeModless_fields {c : CommandWord} (i : Instr) {j : Instr} (hi : i.fields = ⟨0, c.opc⟩)
    (h : decodeModless c i = .ok j) : j.fields = c := by
  unfold decodeModless at h
  split at h
  case isTrue hmod =>
    cases h
    rw [hi, ← hmod]
  case isFalse => cases h

theorem decodeSwitch_fields {m : Nibble} {j : Instr} (h : decodeSwitch ⟨m, 0x4⟩ = .ok j) : j.fields = ⟨m, 0x4⟩ := by
  unfold decodeSwitch at h
  split at h
  case isTrue hoff =>
    obtain rfl : m = 0 := hoff
    cases h
    rfl
  case isFalse =>
    split at h
    case isTrue hon =>
      obtain rfl : m = 1 := hon
      cases h
      rfl
    case isFalse => cases h

/-- No field of a legal command word is dropped: the operation it decodes to has both. -/
theorem decodeFields_fields {c : CommandWord} {i : Instr} (h : decodeFields c = .ok i) : i.fields = c := by
  obtain ⟨m, o⟩ := c
  rcases opc_cases o with rfl | rfl | rfl | rfl | rfl | rfl | rfl | rfl | rfl | rfl | hreserved
  · exact decodeModless_fields .nop rfl h
  · exact decodeModless_fields .crc8 rfl h
  · exact decodeModless_fields .xcs rfl h
  · exact decodeModless_fields .cvcs rfl h
  · exact decodeSwitch_fields h
  · exact decodeModless_fields .swdec rfl h
  · cases h; rfl
  · exact decodeModless_fields .cvdec rfl h
  · exact decodeModless_fields .sndec rfl h
  · exact decodeModless_fields .rcinc rfl h
  · rw [decodeFields_reserved ⟨m, o⟩ hreserved] at h
    cases h

theorem decode_eq_nop (w : Byte) : decode w = .ok .nop ↔ w = 0x00 := by
  constructor
  · obtain ⟨m, o, rfl⟩ := exists_eq_append w
    intro h
    rw [decode_append] at h
    cases decodeFields_fields h
    rfl
  · rintro rfl
    rfl

end Sys2Proof
end

section
/-! SUPPORT. What an operation can leave in the result registers (40_common.md rules R91, R92), said once for each operation,
and the statements about the two classes of state and about NOP that rest on it. -/

namespace Sys2Proof.Machine

/-! ### STATUS and the registers an operation does not write -/

theorem codeNibble_eq_zero (c : StatusCode) : codeNibble c = 0 ↔ c = .ok := by
  cases c <;> decide

/-- STATUS is in the writes column of every operation, so no operation's zeros speak of it. -/
theorem othersZero_withStatus (i : Instr) (r : ResultState) (x : Byte) :
    othersZero i { r with status := x } ↔ othersZero i r := by
  cases i <;> rfl

theorem othersZero_setFv (i : Instr) (r : ResultState) : othersZero i (setFv r) ↔ othersZero i r :=
  othersZero_withStatus i r _

theorem othersZero_setCrcOk (i : Instr) (b : Bool) (r : ResultState) :
    othersZero i (setCrcOk b r) ↔ othersZero i r :=
  othersZero_withStatus i r _

theorem othersZero_finish (i : Instr) (c : StatusCode) (r : ResultState) :
    othersZero i (finish c r) ↔ othersZero i r :=
  othersZero_withStatus i r _

theorem noFrame_cleared : noFrame ResultState.cleared := ⟨rfl, rfl⟩

theorem noCoverState_cleared : noCoverState ResultState.cleared := ⟨rfl, rfl, rfl⟩

theorem noCrc_cleared : noCrc ResultState.cleared := ⟨rfl, rfl⟩

theorem noReading_cleared : noReading ResultState.cleared := ⟨rfl, rfl, rfl, rfl, rfl⟩

theorem othersZero_cleared (i : Instr) : othersZero i ResultState.cleared := by
  cases i with
  | nop => exact ⟨noFrame_cleared, noCoverState_cleared, rfl, noCrc_cleared, rfl, noReading_cleared⟩
  | crc8 => exact ⟨noFrame_cleared, noCoverState_cleared, rfl, rfl, rfl, noReading_cleared⟩
  | xcs | cvcs => exact ⟨noFrame_cleared, noCoverState_cleared, rfl, noCrc_cleared, noReading_cleared⟩
  | swenc _ | swdec => exact ⟨noCoverState_cleared, noCrc_cleared, rfl, noReading_cleared⟩
  | cvenc _ => exact ⟨noCrc_cleared, noReading_cleared⟩
  | cvdec => exact ⟨noFrame_cleared, noCrc_cleared, noReading_cleared⟩
  | sndec => exact ⟨noFrame_cleared, noCoverState_cleared, rfl, rfl⟩
  | rcinc => exact ⟨noFrame_cleared, rfl, noCrc_cleared, rfl, noReading_cleared⟩

/-! ### How an operation ends -/

/-- How an operation other than NOP ends, from cleared results: with a failure's code, or with FV set and any of its codes;
either way the registers outside its writes column are 0. SNDEC fails with its CRC record standing (rule R160), so a failure
is not said to leave nothing. -/
def OpEnds (i : Instr) (r : ResultState) : Prop :=
  (∃ c d, c ∈ raisedBy i ∧ c ≠ .ok ∧ othersZero i d ∧ r = finish c d) ∨
  (∃ c d, c ∈ raisedBy i ∧ othersZero i d ∧ r = finish c (setFv d))

theorem OpEnds.failed {i : Instr} (c : StatusCode) (d : ResultState) (hcode : c ∈ raisedBy i) (hfail : c ≠ .ok)
    (hzero : othersZero i d) : OpEnds i (finish c d) :=
  .inl ⟨c, d, hcode, hfail, hzero, rfl⟩

theorem OpEnds.delivered {i : Instr} (c : StatusCode) (d : ResultState) (hcode : c ∈ raisedBy i)
    (hzero : othersZero i d) : OpEnds i (finish c (setFv d)) :=
  .inr ⟨c, d, hcode, hzero, rfl⟩

/-- A check that fails before anything is written. -/
theorem OpEnds.refused {i : Instr} (c : StatusCode) (hcode : c ∈ raisedBy i) (hfail : c ≠ .ok) :
    OpEnds i (finish c ResultState.cleared) :=
  .failed c _ hcode hfail (othersZero_cleared i)

/-- One check of an operation, before anything is written. -/
theorem OpEnds.check {i : Instr} {P : Prop} [Decidable P] {r : ResultState} (c : StatusCode)
    (hcode : c ∈ raisedBy i) (hfail : c ≠ .ok) (h : OpEnds i r) :
    OpEnds i (if P then finish c ResultState.cleared else r) :=
  iteInduction (fun _ => .refused c hcode hfail) (fun _ => h)

theorem OpEnds.othersZero {i : Instr} {r : ResultState} (h : OpEnds i r) : othersZero i r := by
  rcases h with ⟨c, d, -, -, hzero, rfl⟩ | ⟨c, d, -, hzero, rfl⟩
  · exact (othersZero_finish i c d).2 hzero
  · exact (othersZero_finish i c _).2 ((othersZero_setFv i d).2 hzero)

/-- STATUS shows that an operation ran: in CODE where it failed, in FV where it delivered. -/
theorem OpEnds.status_ne_zero {i : Instr} {r : ResultState} (h : OpEnds i r) : r.status ≠ 0x00 := by
  intro hstatus
  rcases h with ⟨c, d, -, hfail, -, rfl⟩ | ⟨c, d, -, -, rfl⟩
  · have hcode : codeNibble c = 0 := by simpa using congrArg statusCode hstatus
    exact hfail ((codeNibble_eq_zero c).1 hcode)
  · have hfv : true = false := by simpa using congrArg statusFv hstatus
    cases hfv

/-! ### The operations one by one

The registers an operation writes are in its column, so the cleared state's zeros are those of what it leaves. -/

theorem nopOp_cleared (inp : InputState) : nopOp inp ResultState.cleared = ResultState.cleared :=
  finish_cleared .ok

theorem crc8Op_ends (inp : InputState) : OpEnds .crc8 (crc8Op inp ResultState.cleared) :=
  .check .malformedFrame (by decide) (by decide)
    (.delivered .ok _ (by decide) (othersZero_cleared .crc8))

theorem xcsOp_ends (inp : InputState) : OpEnds .xcs (xcsOp inp ResultState.cleared) :=
  .check .malformedFrame (by decide) (by decide)
    (.delivered .ok _ (by decide) (othersZero_cleared .xcs))

theorem cvcsOp_ends (inp : InputState) : OpEnds .cvcs (cvcsOp inp ResultState.cleared) :=
  .check .malformedFrame (by decide) (by decide)
    (.delivered .ok _ (by decide) (othersZero_cleared .cvcs))

theorem swencOp_ends (p : Config.Params) (a : SwitchAction) (inp : InputState) :
    OpEnds (.swenc a) (swencOp p a inp ResultState.cleared) :=
  .check .invalidAddress (.head _) (by decide) <|
  .check .invalidAddress (.head _) (by decide)
    (.delivered .ok _ (.tail _ (.head _)) (othersZero_cleared (.swenc a)))

theorem swdecOp_ends (p : Config.Params) (inp : InputState) :
    OpEnds .swdec (swdecOp p inp ResultState.cleared) := by
  refine .check .malformedFrame (by decide) (by decide) <| .check .malformedFrame (by decide) (by decide) <|
    .check .invalidAddress (by decide) (by decide) ?_
  cases switchActionOf p (inp.slice 12 2) with
  | none => exact .refused .unsupportedCommand (by decide) (by decide)
  | some a => exact .delivered .ok _ (by decide) (othersZero_cleared .swdec)

theorem cvencOp_ends (p : Config.Params) (code : Nibble) (inp : InputState) :
    OpEnds (.cvenc code) (cvencOp p code inp ResultState.cleared) := by
  refine .check .unsupportedCommand (.head _) (by decide) ?_
  cases rollingField p inp.argRc with
  | none => exact .refused .rangeError (.tail _ (.head _)) (by decide)
  | some rf => exact .delivered .ok _ (.tail _ (.tail _ (.head _))) (othersZero_cleared (.cvenc code))

theorem coverFields_othersZero (inp : InputState) :
    othersZero .cvdec (coverFields inp ResultState.cleared) :=
  othersZero_cleared .cvdec

theorem cvdecOp_ends (p : Config.Params) (inp : InputState) :
    OpEnds .cvdec (cvdecOp p inp ResultState.cleared) :=
  .check .malformedFrame (by decide) (by decide) <|
  .check .malformedFrame (by decide) (by decide) <|
  .check .malformedFrame (by decide) (by decide) <|
  .check .badStartMarker (by decide) (by decide) <|
  .check .unsupportedCommand (by decide) (by decide) <|
  iteInduction (fun _ => .delivered .checksumMismatch _ (by decide) (coverFields_othersZero inp))
    (fun _ => .delivered .ok _ (by decide) (coverFields_othersZero inp))

/-- The reading is all in SNDEC's writes column. -/
theorem sensorFields_othersZero (p : Config.Params) (inp : InputState) {r : ResultState}
    (h : othersZero .sndec r) : othersZero .sndec (sensorFields p inp r) := h

theorem sndecStage4_othersZero (inp : InputState) :
    othersZero .sndec (sndecStage4 inp ResultState.cleared) :=
  (othersZero_setCrcOk .sndec _ _).2 (othersZero_cleared .sndec)

theorem sndecStage5_ends (p : Config.Params) (inp : InputState) {r : ResultState} (h : othersZero .sndec r) :
    OpEnds .sndec (sndecStage5 p inp r) :=
  iteInduction (fun _ => .failed .malformedFrame _ (by decide) (by decide) h) fun _ =>
  iteInduction (fun _ => .delivered .checksumMismatch _ (by decide) (sensorFields_othersZero p inp h))
    (fun _ => .delivered .ok _ (by decide) (sensorFields_othersZero p inp h))

theorem sndecOp_ends (p : Config.Params) (inp : InputState) :
    OpEnds .sndec (sndecOp p inp ResultState.cleared) :=
  .check .malformedFrame (by decide) (by decide) <|
  .check .badStartMarker (by decide) (by decide) <|
  .check .malformedFrame (by decide) (by decide) <|
  iteInduction (fun _ => .failed .checksumMismatch _ (by decide) (by decide) (sndecStage4_othersZero inp))
    (fun _ => sndecStage5_ends p inp (sndecStage4_othersZero inp))

theorem rcincOp_ends (inp : InputState) : OpEnds .rcinc (rcincOp inp ResultState.cleared) :=
  .delivered .ok _ (by decide) (othersZero_cleared .rcinc)

/-- Every operation but NOP fails with its code or delivers with FV. -/
theorem opOf_ends (i : Instr) (hi : i ≠ .nop) (inp : InputState) : OpEnds i (opOf i inp ResultState.cleared) := by
  cases i with
  | nop => exact absurd rfl hi
  | crc8 => exact crc8Op_ends inp
  | xcs => exact xcsOp_ends inp
  | cvcs => exact cvcsOp_ends inp
  | swenc a => exact swencOp_ends _ a inp
  | swdec => exact swdecOp_ends _ inp
  | cvenc code => exact cvencOp_ends _ code inp
  | cvdec => exact cvdecOp_ends _ inp
  | sndec => exact sndecOp_ends _ inp
  | rcinc => exact rcincOp_ends inp

theorem opOf_othersZero (i : Instr) (inp : InputState) : othersZero i (opOf i inp ResultState.cleared) := by
  by_cases hi : i = .nop
  · subst hi
    exact (othersZero_finish .nop .ok _).2 (othersZero_cleared .nop)
  · exact (opOf_ends i hi inp).othersZero

/-! ### The command word that leaves all results 0 -/

theorem opOfWord_eq_cleared (w : Byte) (inp : InputState) :
    opOfWord w inp ResultState.cleared = ResultState.cleared ↔ w = 0x00 := by
  constructor
  · intro hcleared
    have hstatus : (opOfWord w inp ResultState.cleared).status = 0x00 := congrArg ResultState.status hcleared
    cases hw : decode w with
    | error e =>
      rw [opOfWord_error hw] at hstatus
      exact absurd hstatus (by decide)
    | ok i =>
      have hop : opOfWord w = opOf i := by unfold opOfWord; rw [hw]
      rw [hop] at hstatus
      by_cases hi : i = .nop
      · exact (decode_eq_nop w).1 (hi ▸ hw)
      · exact absurd hstatus (opOf_ends i hi inp).status_ne_zero
  · rintro rfl
    exact nopOp_cleared inp

/-! ### The two classes of state -/

/-- What the port shows at an offset that is not read-only is input state, or a reserved 0 (rules R21, R22). -/
theorem readByte_of_not_readOnly (i : InputState) (r r' : ResultState) (p : PortByte) (h : accessOf p ≠ .readOnly) :
    readByte i r p = readByte i r' p := by
  cases p with
  | cmd | inLen | argKey | argRc k | argAddr k | inBuf k | reserved => rfl
  | _ => exact absurd rfl h

theorem exec_frame {i : Instr} {s t : State} (h : exec i s = .next t) :
    t.input = s.input ∧ t.pending = s.pending ∧ t.history = s.history := by
  rw [exec_next h]
  exact ⟨rfl, rfl, rfl⟩

theorem execute_next {w : Byte} {s t : State} (h : execute w s = .next t) :
    t = { s with result := opOfWord w s.input ResultState.cleared } := by
  rw [execute_eq] at h
  exact (Host.Outcome.next.inj h).symm

theorem hostWrite_cmd_next {w : Byte} {s t : State} (h : hostWrite 0x00 w s = .next t) :
    t.input = { s.input with cmd := w } ∧
      t.result = opOfWord w { s.input with cmd := w } ResultState.cleared := by
  rw [hostWrite_cmd] at h
  obtain rfl := Host.Outcome.next.inj h
  exact ⟨rfl, rfl⟩

/-- A read leaves the input state, so an access that changes it is a write or reset. -/
theorem perform_changes_input {e : HostEvent} {s t : State} (h : perform e s = .next t) (hne : t.input ≠ s.input) :
    e = .reset ∨ (∃ off v, e = .write off v) ∨ (∃ a v, e = .busWrite a v) := by
  rcases perform_cases h with ⟨off, rfl, -⟩ | ⟨off, v, -, rfl | ⟨a, rfl⟩⟩ | ⟨rfl, -⟩
  · exact absurd (record_input s _) hne
  · exact .inr (.inl ⟨off, v, rfl⟩)
  · exact .inr (.inr ⟨a, v, rfl⟩)
  · exact .inl rfl

/-! ### The statements -/

/-- Settles O15: an operation changes the results alone, and the read/write offsets do not show them. -/
theorem operationsLeaveTheInputState : Obligations.OperationsLeaveTheInputState := by
  refine ⟨fun i s t h => exec_frame h, fun w s t h => (hostWrite_cmd_next h).1,
    fun e s t h hne => perform_changes_input h hne, ?reads⟩
  case reads =>
    intro i s t off h hoff
    rw [exec_next h]
    exact readByte_of_not_readOnly s.input _ s.result (portMap off) hoff

/-- Settles O16: a word's results are its operation on cleared results, whatever stood there, and the operation's end says
which of them stay 0. -/
theorem noResultSurvivesAnOperation : Obligations.NoResultSurvivesAnOperation := by
  refine ⟨fun r => rfl, ?independent, ?input, ?zeros⟩
  case independent =>
    intro w s r t t' h h'
    rw [execute_next h, execute_next h']
  case input =>
    intro w s t h
    rw [execute_next h]
  case zeros =>
    intro i s t h
    rw [exec_next h]
    exact opOf_othersZero i s.input

/-- Settles O20: NOP's status is 0x00, every other operation shows in CODE or FV, and an illegal word in CODE. -/
theorem nopClearsTheResults : Obligations.NopClearsTheResults := by
  refine ⟨(decode_eq_nop 0x00).2 rfl, ?nop, ?only⟩
  case nop =>
    intro s
    rw [exec_eq, opOf, nopOp_cleared]
  case only =>
    intro w s t h
    obtain ⟨-, hresult⟩ := hostWrite_cmd_next h
    rw [hresult, opOfWord_eq_cleared]

end Sys2Proof.Machine
end

section
/-! SUPPORT. The Switch packer (41_switch.md rules R100 to R102): which inputs it takes, the frame it delivers, and the
statement about SWENC that rests on them. -/

namespace Sys2Proof.Machine

/-! ### The symbols and the frame -/

theorem isSwitchSymbol_iff (c : Byte) : isSwitchSymbol c = true ↔ c = 0x30 ∨ c = 0x46 := by
  simp [isSwitchSymbol]

@[simp] theorem commandBits_length (p : Config.Params) (a : SwitchAction) : (commandBits p a).length = 2 := by
  cases a with
  | on => rfl
  | off => rw [commandBits]; cases p.switchOffBits <;> rfl

/-- The lead, the commandbits and the newline are five characters around the symbols (rule R100). -/
theorem switchFrame_length (p : Config.Params) (a : SwitchAction) (symbols : List Byte) :
    (switchFrame p a symbols).length = symbols.length + 5 := by
  simp [switchFrame, switchLead]

/-- The address check of SWENC over IN_BUF[0..9] (rule R101). -/
theorem symbols_valid_iff (i : InputState) :
    (i.slice 0 10).all isSwitchSymbol = true ↔ ∀ k < 10, i.inByte k = 0x30 ∨ i.inByte k = 0x46 := by
  rw [slice_all i isSwitchSymbol 0 10 (by decide)]
  simp [isSwitchSymbol_iff]

/-! ### How SWENC ends -/

/-- A result delivered on a STATUS that was clear: FV and the code stand in STATUS, and CRC_OK stays 0 (rule R92). -/
theorem finish_setFv_of_status_zero (c : StatusCode) {r : ResultState} (h : r.status = 0x00) :
    finish c (setFv r) = { r with status := statusByte false true (codeNibble c) } := by
  simp [finish_setFv_eq, h]

/-- SWENC on an input that passes both checks. -/
theorem swencOp_of_valid (p : Config.Params) (a : SwitchAction) {i : InputState} (hlen : i.len = 10)
    (hsymbols : ∀ k < 10, i.inByte k = 0x30 ∨ i.inByte k = 0x46) :
    swencOp p a i ResultState.cleared =
      { ResultState.cleared with
        status := 0x10
        outLen := 15
        outBuf := writeBytes Buffer.zero 0 (switchFrame p a (i.slice 0 10))
        rCmd   := actionNibble a } := by
  have hvalid : (i.slice 0 10).all isSwitchSymbol = true := (symbols_valid_iff i).2 hsymbols
  have hframe : (switchFrame p a (i.slice 0 10)).length = 15 := by
    rw [switchFrame_length, slice_length i 0 10 (by decide)]
  rw [swencOp, if_neg (not_not.2 hlen), if_neg (by simp [hvalid]), finish_setFv_of_status_zero .ok rfl, putFrame,
    hframe]
  rfl

/-- SWENC on an input that fails either check. -/
theorem swencOp_of_invalid (p : Config.Params) (a : SwitchAction) {i : InputState} (r : ResultState)
    (h : i.len ≠ 10 ∨ ∃ k < 10, i.inByte k ≠ 0x30 ∧ i.inByte k ≠ 0x46) :
    swencOp p a i r = finish .invalidAddress r := by
  rw [swencOp]
  rcases h with hlen | ⟨k, hk, hne0, hneF⟩
  · rw [if_pos hlen]
  · have hinvalid : (i.slice 0 10).all isSwitchSymbol = false := by
      rw [← Bool.not_eq_true, symbols_valid_iff]
      exact fun hall => (hall k hk).elim hne0 hneF
    rw [if_pos hinvalid, ite_self]

/-! ### The statement -/

/-- Settles O37: the two words by evaluation; a valid input by what SWENC delivers, with the commandbits written out for each
action; any other input by the check it fails. -/
theorem swencPacksTheFrame : Obligations.SwencPacksTheFrame := by
  refine ⟨by decide, by decide, fun a s => ⟨?packs, ?refuses⟩⟩
  case packs =>
    intro hlen hsymbols
    rw [exec_eq, opOf, swencOp_of_valid _ a hlen hsymbols]
    cases a <;> rfl
  case refuses =>
    intro hbad
    rw [exec_eq, opOf, swencOp_of_invalid _ a _ hbad, finish_cleared]
    rfl

end Sys2Proof.Machine
end

section
/-! SUPPORT. The Cover checksum and the rolling code (42_cover.md rules R120 to R125): the checksum as a XOR of one
contribution per byte, the placeholder at its place, and the statements about XCS, CVCS and RCINC that rest on them. -/

namespace Sys2Proof.Machine

/-! ### The checksum, byte by byte -/

/-- Only XOR touches the accumulator of XCSUM, so a start value comes out of the sum unchanged. -/
theorem foldl_xcsumStep (l : List Byte) (acc : Byte) : l.foldl xcsumStep acc = acc ^^^ l.foldl xcsumStep 0 := by
  induction l generalizing acc with
  | nil => simp
  | cons b l ih =>
    rw [List.foldl_cons, List.foldl_cons, ih (xcsumStep acc b), ih (xcsumStep 0 b)]
    simp [xcsumStep, BitVec.xor_assoc]

@[simp] theorem xcsum_nil : xcsum [] = 0 := rfl

/-- Each byte adds its own checksum to the sum of the rest. -/
theorem xcsum_cons (b : Byte) (l : List Byte) : xcsum (b :: l) = xcsum [b] ^^^ xcsum l := by
  simp only [xcsum, List.foldl_cons, List.foldl_nil]
  rw [foldl_xcsumStep, BitVec.extractLsb'_xor]

/-- What one byte adds: its two nibbles (rule R120). -/
theorem xcsum_singleton (b : Byte) : xcsum [b] = b.extractLsb' 0 4 ^^^ b.extractLsb' 4 4 := by
  have hhigh : (b >>> 4).extractLsb' 0 4 = b.extractLsb' 4 4 := by
    ext k hk
    simp
  simp [xcsum, xcsumStep, BitVec.extractLsb'_xor, hhigh]

theorem xcsum_cons_of_equal_nibbles {b : Byte} (h : b.extractLsb' 0 4 = b.extractLsb' 4 4) (l : List Byte) :
    xcsum (b :: l) = xcsum l := by
  rw [xcsum_cons, xcsum_singleton, h, BitVec.xor_self, BitVec.zero_xor]

theorem xcsum_cons_cons_self (b : Byte) (l : List Byte) : xcsum (b :: b :: l) = xcsum l := by
  rw [xcsum_cons, xcsum_cons b l, ← BitVec.xor_assoc, BitVec.xor_self, BitVec.zero_xor]

theorem xcsum_perm {l l' : List Byte} (h : l.Perm l') : xcsum l = xcsum l' := by
  induction h with
  | nil => rfl
  | cons b _ ih => rw [xcsum_cons, ih, ← xcsum_cons]
  | swap b c l =>
    calc xcsum (c :: b :: l)
      _ = xcsum [c] ^^^ (xcsum [b] ^^^ xcsum l) := by rw [xcsum_cons, xcsum_cons b l]
      _ = xcsum [b] ^^^ (xcsum [c] ^^^ xcsum l) := by ac_rfl
      _ = xcsum (b :: c :: l) := by rw [xcsum_cons b (c :: l), xcsum_cons c l]
  | trans _ _ ih₁ ih₂ => exact ih₁.trans ih₂

/-! ### How XCS and CVCS end -/

/-- A checksum delivered on cleared results: OK, FV and R_CS. -/
theorem finish_setFv_rCs (cs : Nibble) :
    finish .ok (setFv { ResultState.cleared with rCs := cs }) =
      { ResultState.cleared with status := 0x10, rCs := cs } :=
  finish_setFv_of_status_zero .ok rfl

theorem finish_malformedFrame_cleared :
    finish .malformedFrame ResultState.cleared = { ResultState.cleared with status := 0x04 } :=
  finish_cleared .malformedFrame

theorem xcsOp_of_fits {i : InputState} (h : i.len ≤ 32) :
    xcsOp i ResultState.cleared = { ResultState.cleared with status := 0x10, rCs := xcsum (i.slice 0 i.len) } := by
  rw [xcsOp, if_neg (Nat.not_lt.2 h), finish_setFv_rCs, InputState.inBytes]

theorem xcsOp_of_too_long {i : InputState} (h : 32 < i.len) (r : ResultState) :
    xcsOp i r = finish .malformedFrame r := if_pos h

/-- The placeholder stands in for byte 3, and the bytes on its two sides stay (rules R123, R131). -/
theorem withPlaceholder_slice (i : InputState) :
    withPlaceholder (i.slice 0 14) = i.slice 0 3 ++ [0x30] ++ i.slice 4 10 := by
  have hbefore : (i.slice 0 14).take 3 = i.slice 0 3 := by simp [InputState.slice, List.take_take]
  have hafter : (i.slice 0 14).drop 4 = i.slice 4 10 := by simp [InputState.slice, List.drop_take]
  rw [withPlaceholder, List.set_eq_take_append_cons_drop, if_pos (by simp), hbefore, hafter, List.append_assoc]
  rfl

theorem cvcsOp_of_body {i : InputState} (h : i.len = 14) :
    cvcsOp i ResultState.cleared =
      { ResultState.cleared with
        status := 0x10
        rCs := xcsum (i.slice 0 3 ++ [0x30] ++ i.slice 4 10) } := by
  rw [cvcsOp, if_neg (not_not.2 h), finish_setFv_rCs, withPlaceholder_slice]

theorem cvcsOp_of_other_length {i : InputState} (h : i.len ≠ 14) (r : ResultState) :
    cvcsOp i r = finish .malformedFrame r := if_pos h

/-! ### The successor -/

/-- The successor of a register of w bits counts modulo 2^w. -/
theorem add_one_eq_ofNat_mod {w : Nat} (x : BitVec w) : x + 1#w = BitVec.ofNat w ((x.toNat + 1) % 2 ^ w) := by
  apply BitVec.eq_of_toNat_eq
  simp [BitVec.toNat_add]

/-- RCINC has no check that can fail: it delivers the two successors and the address (rules R124, R125). -/
theorem rcincOp_cleared (i : InputState) :
    rcincOp i ResultState.cleared =
      { ResultState.cleared with
        status := 0x10
        rKey   := i.argKey + 1
        rRc    := i.argRc + 1
        rAddr  := i.argAddr } :=
  finish_setFv_of_status_zero .ok rfl

/-! ### The statements -/

/-- Settles O25: the two outcomes by the length check of XCS; the laws of the checksum by what each byte adds. -/
theorem xcsComputesTheChecksum : Obligations.XcsComputesTheChecksum := by
  refine ⟨by decide, fun s hfits => ?delivers, fun s hlong => ?refuses, xcsum_nil,
    fun l _ hb => xcsum_cons_of_equal_nibbles hb l, fun l b => xcsum_cons_cons_self b l, fun _ _ => xcsum_perm,
    by decide⟩
  case delivers => rw [exec_eq, opOf, xcsOp_of_fits hfits]
  case refuses => rw [exec_eq, opOf, xcsOp_of_too_long hlong, finish_malformedFrame_cleared]

/-- Settles O27: the two outcomes by the length check of CVCS, the placeholder put at index 3 of the body. -/
theorem cvcsSumsTheZeroedBody : Obligations.CvcsSumsTheZeroedBody := by
  refine ⟨by decide, fun s hbody => ?delivers, fun s hlen => ?refuses, by decide, by decide⟩
  case delivers => rw [exec_eq, opOf, cvcsOp_of_body hbody]
  case refuses => rw [exec_eq, opOf, cvcsOp_of_other_length hlen, finish_malformedFrame_cleared]

/-- Settles O29: the delivered state by the modular reading of the successor; the corner cases and the example by
putting their operands into it. -/
theorem rcincDeliversTheSuccessor : Obligations.RcincDeliversTheSuccessor := by
  refine ⟨by decide, fun s => ?delivers, fun s t h => ?corners⟩
  case delivers =>
    have hkey : s.input.argKey + 1 = BitVec.ofNat 4 ((s.input.argKey.toNat + 1) % 16) := add_one_eq_ofNat_mod _
    have hrc : s.input.argRc + 1 = BitVec.ofNat 24 ((s.input.argRc.toNat + 1) % 2 ^ 24) := add_one_eq_ofNat_mod _
    rw [exec_eq, opOf, rcincOp_cleared, hkey, hrc]
  case corners =>
    obtain rfl := exec_next h
    rw [opOf, rcincOp_cleared]
    refine ⟨fun hrc => ?_, fun hkey => ?_, fun hrc => ?_, fun ⟨hkey, hrc, haddr⟩ => ⟨?_, ?_, haddr⟩⟩
    · simp [hrc]
    · simp [hkey]
    · simp [hrc]
    · simp [hkey]
    · simp [hrc]

end Sys2Proof.Machine
end

section
/-! SUPPORT. CRC-8 (43_sensor.md rule R150): its function one byte at a time, how CRC8 ends, and the statement
about CRC8 that rests on them. -/

namespace Sys2Proof.Machine

/-! ### The CRC, byte by byte -/

/-- The byte enters the register whole and is followed by eight rounds, the polynomial written out (rule R150). -/
theorem crcByte_eq_iterate (c b : Byte) :
    crcByte c b = (fun r : Byte => if r.getLsbD 7 then (r <<< 1) ^^^ 0x31 else r <<< 1)^[8] (c ^^^ b) := rfl

@[simp] theorem crc8f_nil : crc8f [] = 0x00 := rfl

theorem crc8f_append_singleton (l : List Byte) (b : Byte) : crc8f (l ++ [b]) = crcByte (crc8f l) b :=
  List.foldl_append

/-- One byte of a CRC in progress, by the register it leaves. -/
theorem foldl_crcByte_cons {c b c' : Byte} (h : crcByte c b = c') (l : List Byte) :
    (b :: l).foldl crcByte c = l.foldl crcByte c' := h ▸ rfl

/-- The corner case of the nine characters "123456789" (rule R150), with the register after each of them. -/
theorem crc8f_digits : crc8f [0x31, 0x32, 0x33, 0x34, 0x35, 0x36, 0x37, 0x38, 0x39] = 0xA2 :=
  calc [0x31, 0x32, 0x33, 0x34, 0x35, 0x36, 0x37, 0x38, 0x39].foldl crcByte 0x00
    _ = [0x32, 0x33, 0x34, 0x35, 0x36, 0x37, 0x38, 0x39].foldl crcByte 0xF4 := foldl_crcByte_cons rfl _
    _ = [0x33, 0x34, 0x35, 0x36, 0x37, 0x38, 0x39].foldl crcByte 0xE1       := foldl_crcByte_cons rfl _
    _ = [0x34, 0x35, 0x36, 0x37, 0x38, 0x39].foldl crcByte 0x66             := foldl_crcByte_cons rfl _
    _ = [0x35, 0x36, 0x37, 0x38, 0x39].foldl crcByte 0x1C                   := foldl_crcByte_cons rfl _
    _ = [0x36, 0x37, 0x38, 0x39].foldl crcByte 0x0E                         := foldl_crcByte_cons rfl _
    _ = [0x37, 0x38, 0x39].foldl crcByte 0x7C                               := foldl_crcByte_cons rfl _
    _ = [0x38, 0x39].foldl crcByte 0xD7                                     := foldl_crcByte_cons rfl _
    _ = [0x39].foldl crcByte 0xEF                                           := foldl_crcByte_cons rfl _
    _ = 0xA2                                                                := foldl_crcByte_cons rfl _

/-- The example of rule R150, the payload of a Sensor frame, with the register after each of its bytes. -/
theorem crc8f_examplePayload : crc8f [0x99, 0xE6, 0x28, 0x2E] = 0xC7 :=
  calc [0x99, 0xE6, 0x28, 0x2E].foldl crcByte 0x00
    _ = [0xE6, 0x28, 0x2E].foldl crcByte 0xB1 := foldl_crcByte_cons rfl _
    _ = [0x28, 0x2E].foldl crcByte 0xE9       := foldl_crcByte_cons rfl _
    _ = [0x2E].foldl crcByte 0x76             := foldl_crcByte_cons rfl _
    _ = 0xC7                                  := foldl_crcByte_cons rfl _

/-! ### How CRC8 ends -/

theorem crc8Op_of_fits {i : InputState} (h : i.len ≤ 32) :
    crc8Op i ResultState.cleared =
      { ResultState.cleared with status := 0x10, rCrc := crc8f (i.slice 0 i.len) } :=
  (if_neg (Nat.not_lt.2 h)).trans (finish_setFv_of_status_zero .ok rfl)

theorem crc8Op_of_too_long {i : InputState} (h : 32 < i.len) (r : ResultState) :
    crc8Op i r = finish .malformedFrame r := if_pos h

/-! ### The statement -/

/-- Settles O21: the two outcomes by the length check of CRC8; the function by its empty sequence and its further byte;
the corner cases and the example by evaluation. -/
theorem crc8ComputesTheCrc : Obligations.Crc8ComputesTheCrc := by
  refine ⟨rfl, fun s hfits => ?delivers, fun s hlong => ?refuses, crc8f_nil, fun l b => ?furtherByte,
    rfl, rfl, rfl, rfl, crc8f_digits, crc8f_examplePayload⟩
  case delivers => rw [exec_eq, opOf, crc8Op_of_fits hfits]
  case refuses => rw [exec_eq, opOf, crc8Op_of_too_long hlong, finish_malformedFrame_cleared]
  case furtherByte => rw [crc8f_append_singleton, crcByte_eq_iterate]

end Sys2Proof.Machine
end

section
/-! SUPPORT. The status code every operation leaves (60_exceptions.md rules R180, R181), and the statement that nothing stops
the block, which rests on it. -/

namespace Sys2Proof.Machine

/-! ### The status code an operation leaves -/

theorem OpEnds.statusCode_mem {i : Instr} {r : ResultState} (h : OpEnds i r) :
    ∃ c ∈ raisedBy i, statusCode r.status = codeNibble c := by
  rcases h with ⟨c, d, hcode, -, -, rfl⟩ | ⟨c, d, hcode, -, rfl⟩ <;>
    exact ⟨c, hcode, statusCode_statusByte _ _ _⟩

/-- Every operation leaves one of its own status codes: NOP leaves OK, the others end as `OpEnds` says. -/
theorem opOf_statusCode_mem (i : Instr) (inp : InputState) :
    ∃ c ∈ raisedBy i, statusCode (opOf i inp ResultState.cleared).status = codeNibble c := by
  by_cases hi : i = .nop
  · subst hi
    exact ⟨.ok, .head _, statusCode_statusByte _ _ _⟩
  · exact (opOf_ends i hi inp).statusCode_mem

/-- Every word leaves a status code: one of its operation's, or IllegalOp where it does not decode (rule R94). -/
theorem opOfWord_statusCode (w : Byte) (inp : InputState) :
    ∃ c, statusCode (opOfWord w inp ResultState.cleared).status = codeNibble c := by
  unfold opOfWord
  cases decode w with
  | ok i =>
    obtain ⟨c, -, hcode⟩ := opOf_statusCode_mem i inp
    exact ⟨c, hcode⟩
  | error e => exact ⟨.illegalOp, statusCode_statusByte _ _ _⟩

/-! ### Every byte write ends in a next state -/

theorem hostWrite_completes (off v : Byte) (s : State) : completes (hostWrite off v s) := by
  by_cases hcmd : off = 0x00
  · subst hcmd
    exact ⟨_, hostWrite_cmd v s⟩
  · exact ⟨_, hostWrite_other off v s hcmd⟩

/-! ### The statement -/

/-- Settles O14: operations and words by the next state they compute, byte writes by whether they hit CMD, and CODE after a
write to CMD by the code the word's operation leaves. -/
theorem noOperationEverStops : Obligations.NoOperationEverStops := by
  refine ⟨fun i s => ⟨_, exec_eq i s⟩, fun w s => ⟨_, execute_eq w s⟩, hostWrite_completes, ?code⟩
  case code =>
    intro w s t h
    obtain ⟨-, hresult⟩ := hostWrite_cmd_next h
    rw [hresult]
    exact opOfWord_statusCode w _

end Sys2Proof.Machine
end

section
/-! SUPPORT. The port after reset (70_reset_and_hazards.md rules R200, R201), and the statement about reset that rests on it. -/

namespace Sys2Proof.Machine

/-! ### Reset registers, byte by byte -/

theorem byteOf24_zero (k : Fin 3) : byteOf24 0 k = 0x00 := by
  revert k; decide

theorem byteOf16_zero (k : Fin 2) : byteOf16 0 k = 0x00 := by
  revert k; decide

/-- Of the bytes of the port only STATUS is not 0 after reset; the parts of a register and of a buffer are 0 each. -/
theorem readByte_reset (p : PortByte) :
    readByte InputState.reset ResultState.reset p = if p = .status then 0x0F else 0x00 := by
  cases p with
  | argRc k | argAddr k | rRc k | rAddr k => exact byteOf24_zero k
  | rTemp k => exact byteOf16_zero k
  | inBuf k | outBuf k => exact bufferZero_getElem k.val k.isLt
  | _ => rfl

/-! ### Reset registers, offset by offset -/

/-- STATUS stands at offset 0x01 and at no other (rule R22). -/
theorem portMap_eq_status (off : Byte) : portMap off = .status ↔ off = 0x01 := by
  revert off; decide

/-- What the port shows depends on the registers alone: not on the pending accesses, nor on the record. -/
theorem hostRead_of_reset {s : State} (hinput : s.input = InputState.reset) (hresult : s.result = ResultState.reset)
    (off : Byte) : hostRead s off = if off = 0x01 then 0x0F else 0x00 := by
  simp only [hostRead, hinput, hresult, readByte_reset, portMap_eq_status]

/-- Reset ends in the block's reset, put on record: no operation runs (rules R200, R201). -/
theorem perform_reset (s : State) : perform .reset s = .next (s.resetBlock.record .resetDone) := rfl

/-! ### The statement -/

/-- Settles O1: the state reset leaves holds the reset registers, and they fix every read. -/
theorem resetSetsEveryRegister : Obligations.ResetSetsEveryRegister := by
  refine ⟨hostRead_of_reset rfl rfl, fun s => ?asserted⟩
  case asserted =>
    have hinput : (s.resetBlock.record .resetDone).input = InputState.reset := by simp
    have hresult : (s.resetBlock.record .resetDone).result = ResultState.reset := by simp
    exact ⟨_, perform_reset s, hinput, hresult, hostRead_of_reset hinput hresult⟩

end Sys2Proof.Machine
end

section
/-! SUPPORT. The accesses at the port (20_memory.md): what a step at a pending access does, what a read returns, a write done
twice, platform addresses, and the order of the accesses; the statements that rest on them. -/

namespace Sys2Proof.Machine

/-! The check limits the memory of all of Lean's threads together, and the tests above leave many threads waiting for the
kernel. So the proofs of this section and of the next are worked through in place, one after another: that is what the
option does here, where no section has variables. The first theorem after them waits for the kernel; what follows runs as
usual. -/

set_option deprecated.oldSectionVars true

/-! ### The step -/

theorem opOfWord_ok {w : Byte} {i : Instr} (h : decode w = .ok i) : opOfWord w = opOf i := by
  rw [opOfWord, h]

/-- A step takes the oldest pending access. -/
theorem step_of_pending {s : State} {e : HostEvent} {rest : List HostEvent} (h : s.pending = e :: rest) :
    step s = perform e { s with pending := rest } := by
  rw [step, takeAccess, h]

/-! ### Reads -/

/-- A register with reserved bits reads as zeros above its used bits (rules R22, R52). -/
theorem setWidth_eq_zero_append {k v : Nat} (x : BitVec v) : x.setWidth (k + v) = (0 : BitVec k) ++ x := by
  ext i hi
  by_cases h : i < v
  · simp [h, BitVec.getElem_append]
  · simp [h, BitVec.getElem_append, BitVec.getLsbD_of_ge x i (Nat.not_lt.1 h)]

/-- The bytes of a register stand in the order of its bits (rule R50). -/
theorem byteOf24_append (v : Word24) : byteOf24 v 0 ++ byteOf24 v 1 ++ byteOf24 v 2 = v := by
  simp only [byteOf24]
  rw [BitVec.extractLsb'_append_extractLsb'_eq_extractLsb' (by decide),
    BitVec.extractLsb'_append_extractLsb'_eq_extractLsb' (by decide)]
  exact BitVec.extractLsb'_eq_self

theorem byteOf16_append (v : BitVec 16) : byteOf16 v 0 ++ byteOf16 v 1 = v := by
  simp only [byteOf16]
  rw [BitVec.extractLsb'_append_extractLsb'_eq_extractLsb' (by decide)]
  exact BitVec.extractLsb'_eq_self

theorem portMap_reserved {off : Byte} (h : off = 0x0B ∨ (0x1D ≤ off.toNat ∧ off.toNat ≤ 0x1F) ∨ 0x60 ≤ off.toNat) :
    portMap off = .reserved := by
  rcases h with rfl | ⟨hlow, hhigh⟩ | habove
  · rfl
  · have hoff : off.toNat = 0x1D ∨ off.toNat = 0x1E ∨ off.toNat = 0x1F := by omega
    rcases hoff with hoff | hoff | hoff <;> (rw [portMap, hoff]; rfl)
  · simp only [portMap]
    rw [if_neg (by omega), if_neg (by omega), if_neg (by omega)]

theorem toNat_add_index (base : Byte) (k : Fin 32) (h : base.toNat ≤ 0x40) :
    (base + BitVec.ofNat 8 k.val).toNat = base.toNat + k.val := by
  rw [BitVec.toNat_add, BitVec.toNat_ofNat]
  omega

theorem portMap_inBuf (k : Fin 32) : portMap (0x20 + BitVec.ofNat 8 k.val) = .inBuf k := by
  simp only [portMap, toNat_add_index 0x20 k (by decide)]
  rw [if_neg (by simp), if_pos (by simp; omega)]
  simp

theorem portMap_outBuf (k : Fin 32) : portMap (0x40 + BitVec.ofNat 8 k.val) = .outBuf k := by
  simp only [portMap, toNat_add_index 0x40 k (by decide)]
  rw [if_neg (by simp; omega), if_neg (by simp), if_pos (by simp; omega)]
  simp

theorem hostRead_of_portMap {off : Byte} {p : PortByte} (s : State) (h : portMap off = p) :
    hostRead s off = readByte s.input s.result p := by
  rw [hostRead, h]

/-! ### A write done twice -/

/-- Clearing a field and putting a value in, done twice. -/
theorem and_or_twice {w : Nat} (v mask x : BitVec w) : (v &&& mask ||| x) &&& mask ||| x = v &&& mask ||| x := by
  ext i hi
  simp only [BitVec.getElem_or, BitVec.getElem_and]
  cases v[i] <;> cases mask[i] <;> cases x[i] <;> rfl

theorem setByteOf24_twice (v : Word24) (k : Fin 3) (b : Byte) :
    setByteOf24 (setByteOf24 v k b) k b = setByteOf24 v k b := by
  fin_cases k <;> exact and_or_twice ..

theorem storeByte_twice (i : InputState) (v : Byte) (p : PortByte) :
    storeByte (storeByte i v p) v p = storeByte i v p := by
  cases p with
  | argRc k | argAddr k => simp only [storeByte, setByteOf24_twice]
  | inBuf k => simp only [storeByte, Vector.set_set]
  | _ => rfl

theorem hostWrite_twice {off v : Byte} {s t u : State} (ht : hostWrite off v s = .next t)
    (hu : hostWrite off v t = .next u) : u.input = t.input ∧ u.result = t.result := by
  rcases hostWrite_cases ht with ⟨rfl, rfl⟩ | ⟨hoff, rfl⟩
  · obtain ⟨hinput, hresult⟩ := hostWrite_cmd_next hu
    exact ⟨hinput, hresult⟩
  · rw [hostWrite_other off v _ hoff] at hu
    obtain rfl := Host.Outcome.next.inj hu
    exact ⟨storeByte_twice s.input v (portMap off), rfl⟩

/-! ### Platform addresses -/

theorem portOffset_base_add (base : Nat) (off : Byte) : portOffset base (base + off.toNat) = some off := by
  have hlt : off.toNat < 256 := off.isLt
  rw [portOffset, if_pos (by omega), Nat.add_sub_cancel_left, BitVec.ofNat_toNat, BitVec.setWidth_eq]

theorem portOffset_outside {base address : Nat} (h : address < base ∨ base + 256 ≤ address) :
    portOffset base address = none :=
  if_neg (by omega)

theorem hardware_portBase : Config.hardware.portBase = Config.portBase := rfl

/-- A platform access is the access at the offset its address has in the port, or is refused by name (rule R58). -/
theorem perform_busRead (address : Nat) (s : State) :
    perform (.busRead address) s =
      ((portOffset Config.portBase address).map fun off => perform (.read off) s).getD
        (.refused (.outsidePort address)) := by
  rw [perform, hardware_portBase]
  cases portOffset Config.portBase address <;> rfl

theorem perform_busWrite (address : Nat) (v : Byte) (s : State) :
    perform (.busWrite address v) s =
      ((portOffset Config.portBase address).map fun off => perform (.write off v) s).getD
        (.refused (.outsidePort address)) := by
  rw [perform, hardware_portBase]
  cases portOffset Config.portBase address <;> rfl

/-! ### The order of the accesses -/

/-- What comes after an outcome: f of the next state, or the fault or refusal alone. -/
def outcomeThen (f : State → Host.Outcome State Fault Refusal) :
    Host.Outcome State Fault Refusal → Host.Outcome State Fault Refusal
  | .next t    => f t
  | .fault f   => .fault f
  | .refused r => .refused r

theorem performAll_cons (e : HostEvent) (es : List HostEvent) (s : State) :
    performAll (e :: es) s = outcomeThen (performAll es) (perform e s) := rfl

theorem runSteps_succ (n : Nat) (s : State) : runSteps (n + 1) s = outcomeThen (runSteps n) (step s) := rfl

/-- An outcome with another list of pending accesses. -/
def outcomeWithPending (rest : List HostEvent) : Host.Outcome State Fault Refusal → Host.Outcome State Fault Refusal
  | .next t    => .next { t with pending := rest }
  | .fault f   => .fault f
  | .refused r => .refused r

theorem hostWrite_withPending (off v : Byte) (rest : List HostEvent) (s : State) :
    hostWrite off v { s with pending := rest } = outcomeWithPending rest (hostWrite off v s) := by
  by_cases hoff : off = 0x00
  · subst hoff
    rw [hostWrite_cmd, hostWrite_cmd, outcomeWithPending]
  · rw [hostWrite_other _ _ _ hoff, hostWrite_other _ _ _ hoff]
    rfl

/-- No access looks at the accesses that come after it, nor changes them (rule R60). -/
theorem perform_withPending (e : HostEvent) (rest : List HostEvent) (s : State) :
    perform e { s with pending := rest } = outcomeWithPending rest (perform e s) := by
  cases e with
  | write off v => exact hostWrite_withPending off v rest s
  | busRead address =>
    rw [perform_busRead, perform_busRead]
    cases portOffset Config.portBase address <;> rfl
  | busWrite address v =>
    rw [perform_busWrite, perform_busWrite]
    cases portOffset Config.portBase address with
    | none => rfl
    | some off => exact hostWrite_withPending off v rest s
  | _ => rfl

/-! ### The statements -/

/-- Settles O7: the step is the write to CMD, whose operation is that of the decoded instruction. -/
theorem stepRunsTheDecodedInstruction : Obligations.StepRunsTheDecodedInstruction := by
  intro s w rest i hpending hdecode _
  refine ⟨_, exec_eq i _, ?_⟩
  rw [step_of_pending hpending, perform, hostWrite_cmd, opOfWord_ok hdecode]

/-- Settles O9: each offset by its place in the map, reserved bits as zeros on the left, and a register's bytes joined. -/
theorem hostReadReturnsTheRegister : Obligations.HostReadReturnsTheRegister := by
  intro s
  refine ⟨fun off => rfl, fun off hoff => hostRead_of_portMap s (portMap_reserved hoff), fun w t h => ?written,
    rfl, rfl, setWidth_eq_zero_append s.input.inLen, setWidth_eq_zero_append s.result.outLen,
    setWidth_eq_zero_append s.input.argKey, setWidth_eq_zero_append s.result.rKey,
    setWidth_eq_zero_append s.result.rCmd, rfl, rfl, setWidth_eq_zero_append s.result.rCs,
    setWidth_eq_zero_append s.result.rDevId, setWidth_eq_zero_append s.result.rHum,
    setWidth_eq_zero_append s.result.rSFlags, rfl,
    fun k => hostRead_of_portMap s (portMap_inBuf k), fun k => hostRead_of_portMap s (portMap_outBuf k),
    byteOf24_append _, byteOf24_append _, byteOf24_append _, byteOf24_append _, byteOf16_append _⟩
  case written =>
    obtain ⟨hinput, -⟩ := hostWrite_cmd_next h
    exact congrArg InputState.cmd hinput

/-- Settles O10: a read keeps both classes of state; a store is idempotent, and a word's operation computes the same again
from the input state its first run left. -/
theorem accessesAreIdempotent : Obligations.AccessesAreIdempotent := by
  refine ⟨fun off s t h => ?read, fun off v s t u => hostWrite_twice, fun w s t h => ?arguments⟩
  case read =>
    obtain rfl := Host.Outcome.next.inj h
    exact ⟨rfl, rfl⟩
  case arguments =>
    obtain ⟨hinput, -⟩ := hostWrite_cmd_next h
    rw [hinput]
    exact ⟨rfl, rfl, rfl⟩

/-- Settles O12: by the offset an address has in the port. -/
theorem platformAddressReachesItsOffset : Obligations.PlatformAddressReachesItsOffset := by
  refine ⟨fun off v s => ?inside, fun address v s houtside => ?outside⟩
  case inside =>
    rw [perform_busRead, perform_busWrite, portOffset_base_add]
    exact ⟨rfl, rfl⟩
  case outside =>
    rw [perform_busRead, perform_busWrite, portOffset_outside houtside]
    exact ⟨rfl, rfl⟩

/-- Settles O13, by induction on the accesses: the first does the same whatever is pending behind it. -/
theorem accessesTakeEffectInIssueOrder : Obligations.AccessesTakeEffectInIssueOrder := by
  intro es rest s
  induction es generalizing s with
  | nil => rfl
  | cons e es ih =>
    rw [List.length_cons, runSteps_succ, performAll_cons, step_of_pending (List.cons_append ..),
      perform_withPending e (es ++ rest) s, perform_withPending e rest s]
    cases perform e s with
    | next t => exact ih t
    | fault f => rfl
    | refused r => rfl

end Sys2Proof.Machine
end

section
/-! SUPPORT. Host programs (30_encoding.md rules R80, R81): what a run of accesses does to the input state, and the statements
about LDBUF, LDCOVER and COMMIT that rest on it. -/

namespace Sys2Proof.Machine

-- The proofs of this section too are worked through in place (see the note before the step).
set_option deprecated.oldSectionVars true

/-! ### Runs of accesses -/

theorem performAll_read (off : Byte) (es : List HostEvent) (s : State) :
    performAll (HostEvent.read off :: es) s = performAll es (s.record (PortEvent.readReply off (hostRead s off))) := rfl

/-- A write that starts no operation stores its byte. -/
theorem performAll_write {off : Byte} (v : Byte) (es : List HostEvent) (s : State) (h : off ≠ 0x00) :
    performAll (HostEvent.write off v :: es) s = performAll es (s.store off v) := by
  rw [performAll_cons, perform, hostWrite_other off v s h, outcomeThen]

/-! ### LDBUF -/

/-- The state with other contents of IN_BUF. -/
def State.withInBuf (s : State) (buf : Buffer) : State := { s with input := { s.input with inBuf := buf } }

theorem store_inBuf (s : State) {k : Nat} (hk : k < 32) (b : Byte) :
    s.store (BitVec.ofNat 8 (0x20 + k)) b = s.withInBuf (s.input.inBuf.setIfInBounds k b) := by
  have hmap : portMap (BitVec.ofNat 8 (0x20 + k)) = .inBuf ⟨k, hk⟩ := by
    rw [BitVec.ofNat_add]
    exact portMap_inBuf ⟨k, hk⟩
  have hset : s.input.inBuf.set k b hk = s.input.inBuf.setIfInBounds k b := by
    ext j hj
    rw [Vector.getElem_set, Vector.getElem_setIfInBounds hj]
  rw [State.store, hmap, storeByte, State.withInBuf, ← hset]

theorem writesFrom_cons (off : Nat) (b : Byte) (bs : List Byte) :
    writesFrom off (b :: bs) = HostEvent.write (BitVec.ofNat 8 off) b :: writesFrom (off + 1) bs := rfl

/-- A run of writes to IN_BUF from index k up. -/
theorem performAll_writesFrom_inBuf (bs : List Byte) (es : List HostEvent) (s : State) (k : Nat)
    (h : k + bs.length ≤ 32) :
    performAll (writesFrom (0x20 + k) bs ++ es) s = performAll es (s.withInBuf (writeBytes s.input.inBuf k bs)) := by
  induction bs generalizing s k with
  | nil => rfl
  | cons b bs ih =>
    rw [List.length_cons] at h
    have hoff : BitVec.ofNat 8 (0x20 + k) ≠ 0x00 := by
      intro hzero
      have hnat : (0x20 + k) % 256 = 0 := congrArg BitVec.toNat hzero
      omega
    rw [writesFrom_cons, List.cons_append, performAll_write b _ s hoff, store_inBuf s (by omega) b, Nat.add_assoc,
      ih _ (k + 1) (by omega)]
    rfl

theorem writesFrom_length (off : Nat) (bs : List Byte) : (writesFrom off bs).length = bs.length := by
  induction bs generalizing off with
  | nil => rfl
  | cons b bs ih => rw [writesFrom_cons, List.length_cons, ih, List.length_cons]

theorem store_length_inLen (s : State) (v : Byte) : (s.store 0x02 v).input.inLen = v.extractLsb' 0 6 := rfl

/-- The bytes written are read back whole. -/
theorem slice_of_writeBytes {i : InputState} {buf : Buffer} {bs : List Byte} (h : i.inBuf = writeBytes buf 0 bs)
    (h32 : bs.length ≤ 32) : i.slice 0 bs.length = bs := by
  apply List.ext_getElem (slice_length i 0 _ (by omega))
  intro k h1 h2
  rw [slice_getElem, inByte_eq i _ (by omega)]
  simp only [h, Nat.zero_add]
  rw [writeBytes_getElem bs buf 0 k (by omega), dif_pos ⟨Nat.zero_le k, by omega⟩]
  rfl

theorem len_of_byte {n : Nat} (h : n ≤ 32) : ((BitVec.ofNat 8 n).extractLsb' 0 6).toNat = n := by
  rw [BitVec.extractLsb'_toNat, BitVec.toNat_ofNat]
  omega

/-! ### The Cover arguments -/

/-- A 24-bit register whose three bytes are stored one after another holds their number (rules R28, R29). -/
theorem setBytesOf24 (v w : Word24) :
    setByteOf24 (setByteOf24 (setByteOf24 v 0 (byteOf24 w 0)) 1 (byteOf24 w 1)) 2 (byteOf24 w 2) = w := by
  rw [← byteOf24_append (setByteOf24 _ 2 _)]
  simp [byteOf24_setByteOf24, byteOf24_append]

theorem extractLsb'_four_eq_ofNat (k : Byte) : k.extractLsb' 0 4 = BitVec.ofNat 4 (k.toNat % 16) := by
  apply BitVec.eq_of_toNat_eq
  simp

theorem extractLsb'_four_setWidth (k : Nibble) : (k.setWidth 8).extractLsb' 0 4 = k := by
  apply BitVec.eq_of_toNat_eq
  rw [BitVec.extractLsb'_toNat, BitVec.toNat_setWidth]
  omega

/-- The three writes of ARG_RC load it whole. -/
theorem performAll_writes24_argRc (v : Word24) (es : List HostEvent) (s : State) :
    performAll (writes24 0x05 v ++ es) s = performAll es { s with input := { s.input with argRc := v } } :=
  calc performAll (writes24 0x05 v ++ es) s
    _ = performAll es (((s.store 0x05 (byteOf24 v 0)).store 0x06 (byteOf24 v 1)).store 0x07 (byteOf24 v 2)) := by
      rw [← performAll_write _ _ _ (by decide), ← performAll_write _ _ _ (by decide),
        ← performAll_write _ _ _ (by decide)]
      rfl
    _ = performAll es { s with input := { s.input with argRc := v } } :=
      congrArg (fun x => performAll es { s with input := { s.input with argRc := x } }) (setBytesOf24 s.input.argRc v)

/-- The three writes of ARG_ADDR load it whole. -/
theorem performAll_writes24_argAddr (v : Word24) (es : List HostEvent) (s : State) :
    performAll (writes24 0x08 v ++ es) s = performAll es { s with input := { s.input with argAddr := v } } :=
  calc performAll (writes24 0x08 v ++ es) s
    _ = performAll es (((s.store 0x08 (byteOf24 v 0)).store 0x09 (byteOf24 v 1)).store 0x0A (byteOf24 v 2)) := by
      rw [← performAll_write _ _ _ (by decide), ← performAll_write _ _ _ (by decide),
        ← performAll_write _ _ _ (by decide)]
      rfl
    _ = performAll es { s with input := { s.input with argAddr := v } } :=
      congrArg (fun x => performAll es { s with input := { s.input with argAddr := x } })
        (setBytesOf24 s.input.argAddr v)

/-- The state u after the copies of n consecutive offsets, with the data read in the state s (log entry 16). -/
def copied (s : State) (src dst : Nat) : Nat → State → State
  | 0, u     => u
  | n + 1, u =>
    copied s (src + 1) (dst + 1) n
      ((u.record (PortEvent.readReply (BitVec.ofNat 8 src) (hostRead u (BitVec.ofNat 8 src)))).store (BitVec.ofNat 8 dst)
        (hostRead s (BitVec.ofNat 8 src)))

theorem copies_succ (s : State) (src dst n : Nat) :
    copies s src dst (n + 1) = HostEvent.read (BitVec.ofNat 8 src) ::
      HostEvent.write (BitVec.ofNat 8 dst) (hostRead s (BitVec.ofNat 8 src)) :: copies s (src + 1) (dst + 1) n := rfl

/-- Copies to offsets other than CMD start no operation (rule R81, COMMIT). -/
theorem performAll_copies (s : State) (n : Nat) {src dst : Nat} (hlow : 0 < dst) (hhigh : dst + n ≤ 256)
    (es : List HostEvent) (u : State) :
    performAll (copies s src dst n ++ es) u = performAll es (copied s src dst n u) := by
  induction n generalizing src dst u with
  | zero => rfl
  | succ n ih =>
    have hoff : BitVec.ofNat 8 dst ≠ 0x00 := by
      intro hzero
      have hnat : dst % 256 = 0 := congrArg BitVec.toNat hzero
      omega
    rw [copies_succ, List.cons_append, List.cons_append, performAll_read, performAll_write _ _ _ hoff,
      ih (Nat.succ_pos dst) (by omega)]
    rfl

/-- COMMIT's copies of R_KEY, R_RC and R_ADDR. -/
def committed (s : State) : State := copied s 0x10 0x08 3 (copied s 0x0D 0x05 3 (copied s 0x0C 0x04 1 s))

theorem performAll_commit (s : State) :
    performAll (copies s 0x0C 0x04 1 ++ copies s 0x0D 0x05 3 ++ copies s 0x10 0x08 3) s = .next (committed s) := by
  rw [List.append_assoc, performAll_copies s 1 (by decide) (by decide), performAll_copies s 3 (by decide) (by decide),
    ← List.append_nil (copies s 0x10 0x08 3), performAll_copies s 3 (by decide) (by decide)]
  rfl

theorem committed_input (s : State) :
    (committed s).input =
      { s.input with argKey := s.result.rKey, argRc := s.result.rRc, argAddr := s.result.rAddr } :=
  calc (committed s).input
    _ = { s.input with
          argKey  := (s.result.rKey.setWidth 8).extractLsb' 0 4
          argRc   := setByteOf24 (setByteOf24 (setByteOf24 s.input.argRc 0 (byteOf24 s.result.rRc 0)) 1
            (byteOf24 s.result.rRc 1)) 2 (byteOf24 s.result.rRc 2)
          argAddr := setByteOf24 (setByteOf24 (setByteOf24 s.input.argAddr 0 (byteOf24 s.result.rAddr 0)) 1
            (byteOf24 s.result.rAddr 1)) 2 (byteOf24 s.result.rAddr 2) } := rfl
    _ = { s.input with argKey := s.result.rKey, argRc := s.result.rRc, argAddr := s.result.rAddr } := by
      rw [extractLsb'_four_setWidth, setBytesOf24, setBytesOf24]

/-! ### The statements -/

/-- Settles O48: the writes to IN_BUF one after another, then the length. -/
theorem ldbufLoadsTheBuffer : Obligations.LdbufLoadsTheBuffer := by
  intro s bs h32
  have hwf : (HostLine.ldbuf bs).wellFormed = true := decide_eq_true h32
  have hexpand : expand s (.ldbuf bs) = some (writesFrom 0x20 bs ++ [HostEvent.write 0x02 (BitVec.ofNat 8 bs.length)]) :=
    if_neg (by rw [hwf]; decide)
  have hrun : performAll (writesFrom 0x20 bs ++ [HostEvent.write 0x02 (BitVec.ofNat 8 bs.length)]) s =
      .next ((s.withInBuf (writeBytes s.input.inBuf 0 bs)).store 0x02 (BitVec.ofNat 8 bs.length)) := by
    rw [performAll_writesFrom_inBuf bs _ s 0 (by omega), performAll_write _ _ _ (by decide)]
    rfl
  refine ⟨_, _, hexpand, ?count, hrun, len_of_byte h32, ?bytes, ?above, rfl, rfl, rfl⟩
  case count => rw [List.length_append, writesFrom_length, List.length_singleton]
  case bytes =>
    rw [InputState.inBytes, InputState.len, store_length_inLen, len_of_byte h32]
    exact slice_of_writeBytes rfl h32
  case above =>
    intro k hk
    exact (writeBytes_getElem bs s.input.inBuf 0 k.val k.isLt).trans (dif_neg (by omega))

/-- Settles O49: LDCOVER by the two registers' writes, COMMIT by its seven copies, whose bytes make up the registers. -/
theorem ldcoverAndCommitLoadTheArguments : Obligations.LdcoverAndCommitLoadTheArguments := by
  refine ⟨fun s k rc a => ?ldcover, fun s => ?commit⟩
  case ldcover =>
    have hrun : performAll (HostEvent.write 0x04 k :: (writes24 0x05 rc ++ writes24 0x08 a)) s =
        .next { s with input := { s.input with argKey := k.extractLsb' 0 4, argRc := rc, argAddr := a } } := by
      rw [performAll_write _ _ _ (by decide), performAll_writes24_argRc, ← List.append_nil (writes24 0x08 a),
        performAll_writes24_argAddr]
      rfl
    refine ⟨HostEvent.write 0x04 k :: (writes24 0x05 rc ++ writes24 0x08 a), _, rfl, rfl, hrun, ?_, rfl⟩
    rw [extractLsb'_four_eq_ofNat]
  case commit => exact ⟨_, committed s, rfl, rfl, performAll_commit s, committed_input s, rfl⟩

end Sys2Proof.Machine
end

section
/-! SUPPORT. The encoder of 30_encoding.md rules R71 to R73 beside the decoder of rule R79, and the rows of the opcode table: the
statements about command words that rest on them. -/

namespace Sys2Proof

/-! ### The encoder -/

-- Waits for the kernel's check of what stands above (see the note before the step).
set_option Elab.async false in
/-- The lemmas of the encoding, gathered over the constructors. -/
theorem encoding_statement (i : Instr) : Laws.Encoding.Statement i := by
  cases i with
  | nop => exact Laws.Encoding.nop
  | crc8 => exact Laws.Encoding.crc8
  | xcs => exact Laws.Encoding.xcs
  | cvcs => exact Laws.Encoding.cvcs
  | swenc a => exact Laws.Encoding.swenc a
  | swdec => exact Laws.Encoding.swdec
  | cvenc code => exact Laws.Encoding.cvenc code
  | cvdec => exact Laws.Encoding.cvdec
  | sndec => exact Laws.Encoding.sndec
  | rcinc => exact Laws.Encoding.rcinc

theorem Instr.wellFormed_of_all (i : Instr) : i.wellFormed = true := by
  obtain ⟨hwf, -, -, -⟩ := encoding_statement i
  exact hwf

theorem matchingRows_encode (i : Instr) : matchingRows (encode i) = [i.mnemonic] := by
  obtain ⟨-, -, -, hrows⟩ := encoding_statement i
  exact hrows

theorem decodeFields_of_instr (i : Instr) : decodeFields i.fields = .ok i := by
  cases i with
  | swenc a => cases a <;> rfl
  | _ => rfl

/-- The word of an operation decodes to it: its two fields come back from their places. -/
theorem decode_encode (i : Instr) : decode (encode i) = .ok i :=
  (decode_append i.mod i.opc).trans (decodeFields_of_instr i)

/-- A word that decodes is the word of its operation. -/
theorem encode_of_decode {w : Byte} {i : Instr} (h : decode w = .ok i) : encode i = w := by
  obtain ⟨m, o, rfl⟩ := exists_eq_append w
  rw [decode_append] at h
  rw [encode, decodeFields_fields h, commandByte]

/-! ### The rows of the opcode table -/

/-- A row without a free bit is one word. -/
theorem decode_of_wholeRow {w : Byte} {i : Instr} (h : w &&& 0xFF = encode i) : ∃ j, decode w = .ok j := by
  rw [Machine.and_allUsed] at h
  exact ⟨i, h ▸ decode_encode i⟩

/-- OPC of a word that is masked by a row which fixes all of OPC. -/
theorem opcOf_and_of_wholeOpc (w mask : Byte) (h : opcOf mask = 0xF) : opcOf (w &&& mask) = opcOf w := by
  rw [opcOf, BitVec.extractLsb'_and, ← opcOf, ← opcOf, h]
  exact BitVec.and_allOnes

/-- SWENC's row leaves the low bit of MOD free. -/
theorem decode_of_switchRow {w : Byte} (h : w &&& 0xEF = 0x04) : ∃ j, decode w = .ok j := by
  have hopc : opcOf w = 0x4 := (opcOf_and_of_wholeOpc w 0xEF rfl).symm.trans (congrArg opcOf h)
  have hmod : modOf w &&& 0xE = 0 := (BitVec.extractLsb'_and (x := w) (y := 0xEF)).symm.trans (congrArg modOf h)
  have haction : modOf w = 0 ∨ modOf w = 1 := by
    revert hmod
    generalize modOf w = m
    revert m
    decide
  rw [decode, hopc]
  rcases haction with hoff | hon
  · exact ⟨Instr.swenc .off, by rw [hoff]; rfl⟩
  · exact ⟨Instr.swenc .on, by rw [hon]; rfl⟩

/-- CVENC's row leaves MOD free. -/
theorem decode_of_cvencRow {w : Byte} (h : w &&& 0x0F = 0x06) : ∃ j, decode w = .ok j := by
  have hopc : opcOf w = 0x6 := (opcOf_and_of_wholeOpc w 0x0F rfl).symm.trans (congrArg opcOf h)
  exact ⟨_, by rw [decode, hopc, decodeFields_cvenc]⟩

/-- What matches a row of the table decodes. -/
theorem decode_of_row {w : Byte} {row : OpcodeRow} (hrow : row ∈ opcodeTable) (h : w &&& row.mask = row.matchBits) :
    ∃ i, decode w = .ok i := by
  fin_cases hrow
  exacts [decode_of_wholeRow (i := .nop) h, decode_of_wholeRow (i := .crc8) h, decode_of_wholeRow (i := .xcs) h,
    decode_of_wholeRow (i := .cvcs) h, decode_of_switchRow h, decode_of_wholeRow (i := .swdec) h, decode_of_cvencRow h,
    decode_of_wholeRow (i := .cvdec) h, decode_of_wholeRow (i := .sndec) h, decode_of_wholeRow (i := .rcinc) h]

theorem matchingRows_eq_nil {w : Byte} {e : DecodeError} (h : decode w = .error e) : matchingRows w = [] := by
  rw [matchingRows, List.map_eq_nil_iff, List.filter_eq_nil_iff]
  intro row hrow hmatch
  obtain ⟨i, hi⟩ := decode_of_row hrow (beq_iff_eq.1 hmatch)
  rw [h] at hi
  cases hi

/-! ### The statements -/

/-- Settles O4: the encoder's fields come back from their places, and the decoder drops none. -/
theorem decodeAndEncodeAgree : Obligations.DecodeAndEncodeAgree :=
  ⟨fun i _ => decode_encode i, fun _ i h => ⟨encode_of_decode h, i.wellFormed_of_all⟩⟩

/-- Settles O5: a decoded word is its operation's word, which has one row; a word with a row decodes. -/
theorem decodedWordsMatchOneTableRow : Obligations.DecodedWordsMatchOneTableRow := by
  intro w
  refine ⟨fun i h => ?_, fun e h => matchingRows_eq_nil h⟩
  rw [← encode_of_decode h, matchingRows_encode]

/-- Settles O2: each word is the encoder's word of its operation. -/
theorem wordsOfTheSpecDecode : Obligations.WordsOfTheSpecDecode :=
  ⟨decode_encode .nop, decode_encode .crc8, decode_encode .xcs, decode_encode .cvcs, decode_encode (.swenc .off),
    decode_encode (.swenc .on), decode_encode .swdec, decode_encode (.cvenc (Machine.coverCode .up)),
    decode_encode (.cvenc (Machine.coverCode .disableSun)), decode_encode (.cvenc 0), decode_encode .cvdec,
    decode_encode .sndec, decode_encode .rcinc⟩

end Sys2Proof
end

section
/-! SUPPORT. The laws of CRC-8 (43_sensor.md section 1): its rounds are linear over XOR, and one byte is eight rounds of the
bit-serial register; the statements that rest on them. -/

namespace Sys2Proof.Machine

/-! ### The rounds -/

/-- The polynomial is XORed in by the bit that leaves the register. -/
def crcFeedback (bit : Bool) : Byte := if bit then Config.crcPoly else 0

theorem crcBit_eq (c : Byte) : crcBit c = c <<< 1 ^^^ crcFeedback (c.getLsbD 7) := by
  unfold crcBit crcFeedback
  split <;> simp

theorem crcSerial_eq (c : Byte) (bit : Bool) : crcSerial c bit = c <<< 1 ^^^ crcFeedback (c.getLsbD 7 ^^ bit) := by
  rw [crcSerial, Bool.bne_eq_xor, crcFeedback]
  split <;> simp

theorem crcFeedback_xor (a b : Bool) : crcFeedback (a ^^ b) = crcFeedback a ^^^ crcFeedback b := by
  cases a <;> cases b <;> decide

theorem crcBit_xor (c d : Byte) : crcBit (c ^^^ d) = crcBit c ^^^ crcBit d := by
  simp only [crcBit_eq, BitVec.shiftLeft_xor_distrib, BitVec.getLsbD_xor, crcFeedback_xor]
  ac_rfl

theorem crcRounds_succ (n : Nat) (c : Byte) : crcRounds (n + 1) c = crcRounds n (crcBit c) := rfl

theorem crcRounds_xor (n : Nat) (c d : Byte) : crcRounds n (c ^^^ d) = crcRounds n c ^^^ crcRounds n d := by
  induction n generalizing c d with
  | zero => rfl
  | succ n ih => rw [crcRounds_succ, crcBit_xor, ih, ← crcRounds_succ, ← crcRounds_succ]

/-- A register that shifts out to zero was clear: bit 0 of the polynomial is 1, so bit 7 was 0, and no other bit is lost. -/
theorem crcBit_eq_zero (c : Byte) : crcBit c = 0 ↔ c = 0 := by
  refine ⟨fun h => ?_, fun h => by rw [h]; rfl⟩
  rw [crcBit_eq] at h
  have hout : c.getLsbD 7 = false := by
    have hlow := congrArg (fun x : Byte => x.getLsbD 0) h
    cases hc : c.getLsbD 7 with
    | false => rfl
    | true => simp [hc, crcFeedback] at hlow
  rw [hout] at h
  have hshift : c <<< 1 = 0 := BitVec.xor_zero.symm.trans h
  ext i hi
  by_cases htop : i = 7
  · subst htop
    simpa using hout
  · have hbit := congrArg (fun x : Byte => x.getLsbD (i + 1)) hshift
    simpa [show i + 1 < 8 by omega] using hbit

/-- No register but the clear one is shifted out to zero: bit 0 of the polynomial is 1. -/
theorem crcRounds_eq_zero (n : Nat) (c : Byte) : crcRounds n c = 0 ↔ c = 0 := by
  induction n generalizing c with
  | zero => rfl
  | succ n ih => rw [crcRounds_succ, ih, crcBit_eq_zero]

theorem crcByte_eq_zero (c b : Byte) : crcByte c b = 0 ↔ c = b := by
  rw [crcByte, crcRounds_eq_zero]
  exact BitVec.xor_eq_zero_iff

/-! ### The bit-serial register -/

/-- A message XORed in whole and shifted once leaves the register that took its bit 7, and the rest of the message above it. -/
theorem crcBit_xor_message (c b : Byte) : crcBit (c ^^^ b) = crcSerial c (b.getLsbD 7) ^^^ b <<< 1 := by
  simp only [crcBit_eq, crcSerial_eq, BitVec.shiftLeft_xor_distrib, BitVec.getLsbD_xor]
  ac_rfl

theorem crcByte_eq_crcBit (c b : Byte) :
    crcByte c b = crcBit (crcBit (crcBit (crcBit (crcBit (crcBit (crcBit (crcBit (c ^^^ b)))))))) := rfl

/-- Eight rounds take in the whole byte, bit 7 first (rule R150). -/
theorem crcByte_eq_serial (c b : Byte) : crcByte c b = (msbBits b).foldl crcSerial c := by
  simp only [crcByte_eq_crcBit, crcBit_xor_message, msbBits, List.foldl]
  simp

/-! ### The laws -/

theorem foldl_crcByte_xor {x y : List Byte} (h : x.length = y.length) (c d : Byte) :
    (List.zipWith (· ^^^ ·) x y).foldl crcByte (c ^^^ d) = x.foldl crcByte c ^^^ y.foldl crcByte d := by
  induction x generalizing y c d with
  | nil =>
    obtain rfl := List.eq_nil_of_length_eq_zero h.symm
    rfl
  | cons a x ih =>
    cases y with
    | nil => cases h
    | cons b y =>
      have hbyte : crcByte (c ^^^ d) (a ^^^ b) = crcByte c a ^^^ crcByte d b := by
        rw [crcByte, crcByte, crcByte, ← crcRounds_xor]
        congr 1
        ac_rfl
      rw [List.zipWith_cons_cons, List.foldl_cons, hbyte, ih (Nat.succ.inj h), ← List.foldl_cons, ← List.foldl_cons]

theorem crc8f_append_eq_zero (l : List Byte) (b : Byte) : crc8f (l ++ [b]) = 0x00 ↔ crc8f l = b := by
  rw [crc8f_append_singleton]
  exact crcByte_eq_zero _ _

theorem crc8f_zero_cons (l : List Byte) : crc8f (0x00 :: l) = crc8f l := rfl

/-! ### The statements -/

/-- Settles O22, by induction on the message: each byte is eight rounds of the register. -/
theorem crcIsTheBitSerialRegister : Obligations.CrcIsTheBitSerialRegister := by
  intro l
  rw [crc8f, List.foldl_flatMap]
  congr
  funext c b
  exact crcByte_eq_serial c b

/-- Settles O23. -/
theorem crcLaws : Obligations.CrcLaws :=
  ⟨fun _ _ h => foldl_crcByte_xor h 0 0, fun b => (crc8f_append_eq_zero b _).2 rfl, crc8f_zero_cons,
    fun _ => crc8f_append_eq_zero _ _⟩

end Sys2Proof.Machine
end

section
/-! SUPPORT. The readings of the XOR-nibble checksum (42_cover.md section 1) and the wraparound of the successor (sections 2 and
3): the statements about them. -/

namespace Sys2Proof.Machine

/-! ### The checksum -/

/-- The checksum is what the two nibbles of every byte add to a sum in progress. -/
theorem foldl_nibbles (l : List Byte) (acc : Nibble) :
    l.foldl (fun (acc : Nibble) (b : Byte) => acc ^^^ (b.extractLsb' 0 4 ^^^ b.extractLsb' 4 4)) acc =
      acc ^^^ xcsum l := by
  induction l generalizing acc with
  | nil => simp
  | cons b l ih => rw [List.foldl_cons, ih, xcsum_cons, xcsum_singleton, BitVec.xor_assoc]

/-- A decimal digit adds its value with both bits of '3' turned, a letter its place among the letters with the bit of '4'. -/
theorem xcsum_digit (n : Nat) (h : n < 10) : xcsum [hexchar n] = BitVec.ofNat 4 n ^^^ 3 := by
  interval_cases n <;> rfl

theorem xcsum_letter (n : Nat) (h : n < 16) (hn : 10 ≤ n) : xcsum [hexchar n] = BitVec.ofNat 4 (n - 9) ^^^ 4 := by
  interval_cases n <;> rfl

/-! ### The successor -/

/-- The successor as a map of pairs, as it is iterated. -/
theorem iterate_coverSucc (k : Nibble) (rc : Word24) (n : Nat) :
    (fun x : Nibble × Word24 => coverSucc x.1 x.2)^[n] (k, rc) = (k + BitVec.ofNat 4 n, rc + BitVec.ofNat 24 n) := by
  induction n with
  | zero => simp
  | succ n ih =>
    rw [Function.iterate_succ_apply', ih, coverSucc, BitVec.ofNat_add, BitVec.ofNat_add, BitVec.add_assoc,
      BitVec.add_assoc]
    rfl

/-! ### The statements -/

/-- Settles O24: the low nibble is a mask, and the fold splits into what each byte adds. -/
theorem xcsumXorsBothNibbles : Obligations.XcsumXorsBothNibbles := by
  refine ⟨fun l => setWidth_extractLsb'_four _, fun l => ?_, xcsum_nil⟩
  rw [foldl_nibbles]
  exact (BitVec.zero_xor).symm

/-- Settles O26: the tables by evaluation, the closed forms digit by digit. -/
theorem characterContributions : Obligations.CharacterContributions :=
  ⟨rfl, rfl, xcsum_digit, xcsum_letter⟩

/-- Settles O30: n applications add n to both components, each modulo its own width. -/
theorem successorWrapsAround : Obligations.SuccessorWrapsAround := by
  intro k rc
  simp only [iterate_coverSucc]
  refine ⟨by simp, by simp, fun n => ?count, fun m n hm hn hne => ?distinct⟩
  case count => simp [BitVec.toNat_add]
  case distinct =>
    intro heq
    have hmn : BitVec.ofNat 24 m = BitVec.ofNat 24 n := by simpa using heq
    have hmod := congrArg BitVec.toNat hmn
    rw [BitVec.toNat_ofNat, BitVec.toNat_ofNat, Nat.mod_eq_of_lt hm, Nat.mod_eq_of_lt hn] at hmod
    exact hne hmod

end Sys2Proof.Machine
end

section
/-! SUPPORT. Frames handed from OUT_BUF to IN_BUF: what the slices and bytes of an input are that holds a text another operation
delivered (40_common.md rule R93, 10_state.md rules R41, R42). -/

namespace Sys2Proof.Machine

/-- OUT_BUF[0..OUT_LEN-1] of a result that holds a frame in a cleared buffer. -/
theorem frame_of_writeBytes {r : ResultState} {l : List Byte} (hl : l.length ≤ 32)
    (hlen : r.outLen = BitVec.ofNat 6 l.length) (hbuf : r.outBuf = writeBytes Buffer.zero 0 l) : r.frame = l := by
  rw [← putFrame_frame l hl, ResultState.frame, ResultState.frame, hlen, hbuf, putFrame_outLen, putFrame_outBuf,
    cleared_outBuf]

/-- A frame's byte in OUT_BUF. -/
theorem writeBytes_zero_getElem (l : List Byte) {k : Nat} (hk : k < l.length) (h32 : k < 32) :
    (writeBytes Buffer.zero 0 l)[k] = l[k] := by
  rw [writeBytes_getElem l _ 0 k h32, dif_pos ⟨Nat.zero_le k, by omega⟩]
  rfl

/-- The input's first bytes are the text. -/
def holdsText (i : InputState) (l : List Byte) : Prop := ∀ k (hk : k < l.length), i.inByte k = l[k]

/-- An input into which a delivered frame was copied holds the frame. -/
theorem holdsText_of_outBuf {i : InputState} {r : ResultState} {l : List Byte} {n : Nat} (hl : l.length = n) (hn : n ≤ 32)
    (hbuf : r.outBuf = writeBytes Buffer.zero 0 l) (hcopy : ∀ k : Fin 32, k.val < n → i.inBuf[k] = r.outBuf[k]) :
    holdsText i l := by
  intro k hk
  have h32 : k < 32 := by omega
  calc i.inByte k
    _ = i.inBuf[k]   := inByte_eq i k h32
    _ = r.outBuf[k]  := hcopy ⟨k, h32⟩ (hl ▸ hk)
    _ = l[k]         := by simp only [hbuf, writeBytes_zero_getElem l hk h32]

/-- A slice of an input that holds a text is that part of the text. -/
theorem holdsText.slice_eq {i : InputState} {l : List Byte} (h : holdsText i l) (h32 : l.length ≤ 32)
    {x n : Nat} (before part after : List Byte) (hl : l = before ++ part ++ after) (hx : before.length = x)
    (hn : part.length = n) : i.slice x n = part := by
  have hlen : l.length = x + n + after.length := by rw [hl, List.length_append, List.length_append, hx, hn]
  apply List.ext_getElem
  · rw [slice_length i x n (by omega), hn]
  · intro k h1 h2
    rw [slice_getElem, h _ (by omega)]
    simp [hl, ← hx, h2]

end Sys2Proof.Machine
end

section
/-! SUPPORT. The Cover packer and its inverse (42_cover.md sections 3 and 4): how CVENC and CVDEC end, and the statements about
Cover frames that rest on it. -/

namespace Sys2Proof.Machine

/-! ### How CVENC ends -/

/-- The STATUS of a delivered result. -/
theorem statusCode_ok : statusCode 0x10 = codeNibble .ok := by decide

theorem isCoverCode_iff (c : Nat) : isCoverCode c = true ↔ 1 ≤ c ∧ c ≤ 10 := by
  simp [isCoverCode]

theorem isCoverCode_false_iff (c : Nat) : isCoverCode c = false ↔ c = 0 ∨ 11 ≤ c := by
  rw [← Bool.not_eq_true, isCoverCode_iff]
  omega

/-- Whatever RC_FIELD_POLICY says, a field that is carried is the low 16 bits (rule R128). -/
theorem rollingField_some {p : Config.Params} {rc : Word24} {rf : Nat} (h : rollingField p rc = some rf) :
    rf = rc.toNat % 0x10000 := by
  unfold rollingField at h
  split at h
  case isTrue hfits =>
    obtain rfl := Option.some.inj h
    omega
  case isFalse =>
    cases hpolicy : p.rcFieldPolicy with
    | refuse => simp [hpolicy] at h
    | truncate16 => simpa [hpolicy] using h.symm

theorem rollingField_of_fits (p : Config.Params) {rc : Word24} (h : rc.toNat ≤ 0xFFFF) :
    rollingField p rc = some rc.toNat := if_pos h

theorem rollingField_refuse {p : Config.Params} {rc : Word24} (h : 0xFFFF < rc.toNat) (hp : p.rcFieldPolicy = .refuse) :
    rollingField p rc = none := by
  rw [rollingField, if_neg (by omega), hp]

theorem rollingField_truncate16 {p : Config.Params} {rc : Word24} (h : p.rcFieldPolicy = .truncate16) :
    rollingField p rc = some (rc.toNat % 0x10000) := by
  unfold rollingField
  split
  case isTrue hfits => rw [Nat.mod_eq_of_lt (by omega)]
  case isFalse => rw [h]

theorem coverFrame_length (p : Config.Params) (k code : Nibble) (rf : Nat) (a : Word24) :
    (coverFrame p k code rf a).length = 17 := rfl

theorem cvencOp_of_bad_code (p : Config.Params) {code : Nibble} (h : code.toNat = 0 ∨ 11 ≤ code.toNat) (i : InputState)
    (r : ResultState) : cvencOp p code i r = finish .unsupportedCommand r :=
  if_pos ((isCoverCode_false_iff _).2 h)

theorem cvencOp_of_no_field {p : Config.Params} {code : Nibble} {i : InputState} (hcode : isCoverCode code.toNat = true)
    (hfield : rollingField p i.argRc = none) (r : ResultState) : cvencOp p code i r = finish .rangeError r := by
  rw [cvencOp, if_neg (by simp [hcode]), hfield]

/-- The result CVENC delivers with the rolling-code field rf (rule R127). -/
def cvencDelivered (p : Config.Params) (code : Nibble) (i : InputState) (rf : Nat) : ResultState :=
  { ResultState.cleared with
    status := 0x10
    outLen := 17
    outBuf := writeBytes Buffer.zero 0 (coverFrame p i.argKey code rf i.argAddr)
    rKey   := i.argKey + 1
    rRc    := i.argRc + 1
    rAddr  := i.argAddr
    rCmd   := code
    rCs    := coverSum p i.argKey code rf i.argAddr }

theorem cvencDelivered_outBuf (p : Config.Params) (code : Nibble) (i : InputState) (rf : Nat) :
    (cvencDelivered p code i rf).outBuf = writeBytes Buffer.zero 0 (coverFrame p i.argKey code rf i.argAddr) := rfl

theorem cvencOp_of_field {p : Config.Params} {code : Nibble} {i : InputState} {rf : Nat}
    (hcode : isCoverCode code.toNat = true) (hfield : rollingField p i.argRc = some rf) :
    cvencOp p code i ResultState.cleared = cvencDelivered p code i rf := by
  rw [cvencOp, if_neg (by simp [hcode]), hfield]
  exact finish_setFv_of_status_zero .ok rfl

/-- CVENC delivers a frame, or its status code is another than OK and no frame is out. -/
theorem cvencOp_cases (p : Config.Params) (code : Nibble) (i : InputState) :
    (∃ rf, isCoverCode code.toNat = true ∧ rollingField p i.argRc = some rf ∧
      cvencOp p code i ResultState.cleared = cvencDelivered p code i rf) ∨
    ∃ c, c ≠ .ok ∧ cvencOp p code i ResultState.cleared = finish c ResultState.cleared := by
  cases hcode : isCoverCode code.toNat with
  | false => exact Or.inr ⟨.unsupportedCommand, by decide, if_pos hcode⟩
  | true =>
    cases hfield : rollingField p i.argRc with
    | none => exact Or.inr ⟨.rangeError, by decide, cvencOp_of_no_field hcode hfield _⟩
    | some rf => exact Or.inl ⟨rf, rfl, rfl, cvencOp_of_field hcode hfield⟩

theorem cvencDelivered_frame (p : Config.Params) (code : Nibble) (i : InputState) (rf : Nat) :
    (cvencDelivered p code i rf).frame = coverFrame p i.argKey code rf i.argAddr :=
  frame_of_writeBytes (by rw [coverFrame_length]; decide) (by rw [coverFrame_length]; rfl)
    (cvencDelivered_outBuf p code i rf)

/-- RRRR stands at characters 6..9 of the frame (rule R126). -/
theorem coverFrame_field (p : Config.Params) (k code : Nibble) (rf : Nat) (a : Word24) :
    ((coverFrame p k code rf a).drop 6).take 4 = hexstr 4 rf := rfl

/-! ### How CVDEC ends -/

/-- The inputs that pass CVDEC's checks of length, literal bytes and hex digits (rule R130). -/
def coverInput (i : InputState) : Prop :=
  i.len = 17 ∧ i.inByte 0 = 0x59 ∧ i.inByte 1 = 0x73 ∧ i.inByte 16 = 0x0A ∧
  ∀ k, 2 ≤ k → k ≤ 15 → ishex (i.inByte k) = true

theorem coverFramed_iff (i : InputState) :
    coverFramed i = true ↔ i.inByte 0 = 0x59 ∧ i.inByte 1 = 0x73 ∧ i.inByte 16 = 0x0A := by
  have hlead : i.slice 0 2 = [i.inByte 0, i.inByte 1] := slice_eq_map i 0 2 (by decide)
  rw [coverFramed, hlead]
  simp [coverFrameLead, newline, and_assoc]

theorem coverDigits_iff (i : InputState) :
    (i.slice 2 14).all ishex = true ↔ ∀ k, 2 ≤ k → k ≤ 15 → ishex (i.inByte k) = true := by
  rw [slice_all i ishex 2 14 (by decide)]
  exact forall_congr' fun k => forall_congr' fun _ => ⟨fun h hk => h (by omega), fun h hk => h (by omega)⟩

theorem coverInput_iff (i : InputState) :
    coverInput i ↔ i.len = 17 ∧ coverFramed i = true ∧ (i.slice 2 14).all ishex = true := by
  rw [coverFramed_iff, coverDigits_iff, coverInput]
  tauto

theorem cvdecOp_of_not_coverInput (p : Config.Params) {i : InputState} (h : ¬ coverInput i) (r : ResultState) :
    cvdecOp p i r = finish .malformedFrame r := by
  rw [coverInput_iff] at h
  rw [cvdecOp]
  by_cases hlen : i.len = 17
  · by_cases hframed : coverFramed i = false
    · rw [if_pos hframed, ite_self]
    · have hdigits : (i.slice 2 14).all ishex = false := by simpa [hlen, hframed] using h
      rw [if_pos hdigits, ite_self, ite_self]
  · rw [if_pos hlen]

/-- CVDEC past its framing checks: the lead, the command digit, and the checksum digit. -/
theorem cvdecOp_of_coverInput (p : Config.Params) {i : InputState} (h : coverInput i) (r : ResultState) :
    cvdecOp p i r =
      if i.inByte 2 ≠ p.coverLead then finish .badStartMarker r
      else if isCoverCode (hexval (i.inByte 4)) = false then finish .unsupportedCommand r
      else if (xcsum (withPlaceholder (i.slice 2 14))).toNat ≠ hexval (i.inByte 5) then
        finish .checksumMismatch (setFv (coverFields i r))
      else finish .ok (setFv (coverFields i r)) := by
  obtain ⟨hlen, hframed, hdigits⟩ := (coverInput_iff i).1 h
  rw [cvdecOp, if_neg (not_not.2 hlen), if_neg (by simp [hframed]), if_neg (by simp [hdigits])]

theorem cvdecOp_of_fields {p : Config.Params} {i : InputState} (h : coverInput i) (hlead : i.inByte 2 = p.coverLead)
    (hcode : isCoverCode (hexval (i.inByte 4)) = true) :
    cvdecOp p i ResultState.cleared =
      { coverFields i ResultState.cleared with
        status := if (xcsum (withPlaceholder (i.slice 2 14))).toNat = hexval (i.inByte 5) then 0x10 else 0x16 } := by
  rw [cvdecOp_of_coverInput p h, if_neg (not_not.2 hlead), if_neg (by simp [hcode])]
  by_cases hsum : (xcsum (withPlaceholder (i.slice 2 14))).toNat = hexval (i.inByte 5)
  · rw [if_neg (not_not.2 hsum), if_pos hsum]
    exact finish_setFv_of_status_zero .ok rfl
  · rw [if_pos hsum, if_neg hsum]
    exact finish_setFv_of_status_zero .checksumMismatch rfl

/-- The placeholder in the body of a frame, and the bytes on its two sides (rules R130, R131). -/
theorem withPlaceholder_body (i : InputState) :
    withPlaceholder (i.slice 2 14) = i.slice 2 3 ++ [0x30] ++ i.slice 6 10 := by
  simp only [withPlaceholder, placeholder, slice_eq_map i _ _ (show 2 + 14 ≤ 32 by decide),
    slice_eq_map i _ _ (show 2 + 3 ≤ 32 by decide), slice_eq_map i _ _ (show 6 + 10 ≤ 32 by decide)]
  rfl

theorem hexnum_four (a b c d : Byte) :
    hexnum [a, b, c, d] = 16 ^ 3 * hexval a + 16 ^ 2 * hexval b + 16 * hexval c + hexval d := by
  simp only [hexnum, List.foldl]
  ring

theorem hexnum_slice_four (i : InputState) :
    hexnum (i.slice 6 4) = 16 ^ 3 * hexval (i.inByte 6) + 16 ^ 2 * hexval (i.inByte 7) + 16 * hexval (i.inByte 8) +
      hexval (i.inByte 9) := by
  rw [slice_eq_map i 6 4 (by decide)]
  exact hexnum_four ..

theorem hexnum_six (a b c d e f : Byte) :
    hexnum [a, b, c, d, e, f] =
      16 ^ 5 * hexval a + 16 ^ 4 * hexval b + 16 ^ 3 * hexval c + 16 ^ 2 * hexval d + 16 * hexval e + hexval f := by
  simp only [hexnum, List.foldl]
  ring

theorem hexnum_slice_six (i : InputState) :
    hexnum (i.slice 10 6) = 16 ^ 5 * hexval (i.inByte 10) + 16 ^ 4 * hexval (i.inByte 11) +
      16 ^ 3 * hexval (i.inByte 12) + 16 ^ 2 * hexval (i.inByte 13) + 16 * hexval (i.inByte 14) +
      hexval (i.inByte 15) := by
  rw [slice_eq_map i 10 6 (by decide)]
  exact hexnum_six ..

/-! ### The statements -/

/-- COVER_LEAD of this hardware (rule R7). -/
theorem hardware_lead : Config.hardware.coverLead = 0x41 := rfl

/-- Settles O31: the frame is the delivered one, written out for the lead 'A'. -/
theorem cvencPacksTheFrame : Obligations.CvencPacksTheFrame := by
  intro code s hlow hhigh hfits
  refine ⟨coverSum Config.hardware s.input.argKey code s.input.argRc.toNat s.input.argAddr, rfl, ?_⟩
  rw [exec_eq, opOf, cvencOp_of_field ((isCoverCode_iff _).2 ⟨hlow, hhigh⟩) (rollingField_of_fits _ hfits)]
  rfl

/-- Settles O32: the command code is checked first, then the rolling code's field. -/
theorem cvencFailureDeliversNothing : Obligations.CvencFailureDeliversNothing := by
  intro code s
  refine ⟨fun hcode => ?code, fun hlow hhigh hbig => ?range⟩
  case code =>
    have hbad : code.toNat = 0 ∨ 11 ≤ code.toNat := hcode.imp_left (congrArg BitVec.toNat)
    rw [exec_eq, opOf, cvencOp_of_bad_code _ hbad, finish_cleared]
    rfl
  case range =>
    rw [exec_eq, opOf, cvencOp_of_no_field ((isCoverCode_iff _).2 ⟨hlow, hhigh⟩) (rollingField_refuse hbig rfl),
      finish_cleared]
    rfl

/-- Settles O33: REFUSE has no field for a code that does not fit; otherwise the field is the low 16 bits, and the successor
is the 24-bit one. -/
theorem rollingCodeFieldPolicies : Obligations.RollingCodeFieldPolicies := by
  refine ⟨rfl, fun p code i hlow hhigh => ⟨fun hbig hrefuse => ?refused, fun hcarried => ?delivered⟩⟩
  all_goals have hcode : isCoverCode code.toNat = true := (isCoverCode_iff _).2 ⟨hlow, hhigh⟩
  case refused =>
    rw [cvencOp_of_no_field hcode (rollingField_refuse hbig hrefuse), finish_cleared]
    rfl
  case delivered =>
    have hfield : rollingField p i.argRc = some (i.argRc.toNat % 0x10000) := by
      rcases hcarried with htruncate | hfits
      · exact rollingField_truncate16 htruncate
      · rw [rollingField_of_fits p hfits, Nat.mod_eq_of_lt (by omega)]
    rw [cvencOp_of_field hcode hfield, cvencDelivered_frame, coverFrame_field]
    exact ⟨statusCode_ok, rfl, rfl, rfl⟩

/-- Settles O35: past every check but the last, the fields are delivered whatever the checksum digit says. -/
theorem cvdecDeliversTheFields : Obligations.CvdecDeliversTheFields := by
  intro s hlen h0 h1 h16 hdigits hlead hlow hhigh
  refine ⟨xcsum (withPlaceholder (s.input.slice 2 14)), congrArg xcsum (withPlaceholder_body s.input), ?_⟩
  rw [exec_eq, opOf, cvdecOp_of_fields ⟨hlen, h0, h1, h16, hdigits⟩ hlead ((isCoverCode_iff _).2 ⟨hlow, hhigh⟩),
    coverFields, hexnum_slice_four, hexnum_slice_six]

/-- Settles O36: the checks one after another. -/
theorem cvdecChecksInOrder : Obligations.CvdecChecksInOrder := by
  intro s framed
  refine ⟨fun hbad => ?framing, fun hframed hlead => ?lead, fun hframed hlead hcode => ?command⟩
  case framing =>
    rw [exec_eq, opOf, cvdecOp_of_not_coverInput _ hbad, finish_cleared]
    rfl
  case lead =>
    rw [exec_eq, opOf, cvdecOp_of_coverInput _ hframed, hardware_lead, if_pos hlead, finish_cleared]
    rfl
  case command =>
    rw [exec_eq, opOf, cvdecOp_of_coverInput _ hframed, hardware_lead, if_neg (not_not.2 hlead),
      if_pos ((isCoverCode_false_iff _).2 hcode), finish_cleared]
    rfl

end Sys2Proof.Machine
end

section
/-! SUPPORT. The Cover round trip (42_cover.md section 4): CVDEC of a frame CVENC delivered, and the statements that rest on
it. -/

namespace Sys2Proof.Machine

/-! ### The frame as CVDEC's input -/

theorem coverLead_ishex {p : Config.Params} (h : p.wellFormed = true) : ishex p.coverLead = true := by
  simpa [Config.Params.wellFormed, ishex, isdec, isUpperHex, isLowerHex, or_assoc] using h

theorem hexchar_nibble_ishex (n : Nibble) : ishex (hexchar n.toNat) = true := hexchar_ishex _ n.isLt

theorem hexval_hexchar_nibble (n : Nibble) : hexval (hexchar n.toNat) = n.toNat := hexval_hexchar _ n.isLt

/-- The body of a frame is made of hex digits. -/
theorem coverBody_ishex {p : Config.Params} (hp : p.wellFormed = true) (k code cs : Nibble) (rf : Nat) (a : Word24) :
    (coverBody p k code (hexchar cs.toNat) rf a).all ishex = true := by
  have hrf : ∀ c ∈ hexstr 4 rf, ishex c = true := hexstr_ishex 4 rf
  have ha : ∀ c ∈ hexstr 6 a.toNat, ishex c = true := hexstr_ishex 6 a.toNat
  simpa [coverBody, coverLead_ishex hp, hexchar_nibble_ishex] using ⟨hrf, ha⟩

/-- The checksum of a body does not see the digit at its place. -/
theorem xcsum_withPlaceholder_coverBody (p : Config.Params) (k code : Nibble) (h : Byte) (rf : Nat) (a : Word24) :
    xcsum (withPlaceholder (coverBody p k code h rf a)) = coverSum p k code rf a := rfl

/-- CVDEC of an input that holds a Cover frame. -/
theorem cvdecOp_of_coverFrame {p : Config.Params} (hp : p.wellFormed = true) {k code : Nibble}
    (hcode : isCoverCode code.toNat = true) {rf : Nat} {a : Word24} {j : InputState} (hlen : j.len = 17)
    (hj : holdsText j (coverFrame p k code rf a)) :
    cvdecOp p j ResultState.cleared =
      { ResultState.cleared with
        status := 0x10
        rKey   := k
        rCmd   := code
        rRc    := BitVec.ofNat 24 (rf % 0x10000)
        rAddr  := a
        rCs    := coverSum p k code rf a } := by
  set cs := coverSum p k code rf a
  have h32 : (coverFrame p k code rf a).length ≤ 32 := by rw [coverFrame_length]; decide
  have hbyte (n : Nat) (hn : n < 17) : j.inByte n = (coverFrame p k code rf a)[n] := hj n hn
  have hlead : j.inByte 2 = p.coverLead := hbyte 2 (by decide)
  have hkey : hexval (j.inByte 3) = k.toNat := (congrArg hexval (hbyte 3 (by decide))).trans (hexval_hexchar_nibble k)
  have hcmd : hexval (j.inByte 4) = code.toNat :=
    (congrArg hexval (hbyte 4 (by decide))).trans (hexval_hexchar_nibble code)
  have hsum : hexval (j.inByte 5) = cs.toNat := (congrArg hexval (hbyte 5 (by decide))).trans (hexval_hexchar_nibble cs)
  have hbody : j.slice 2 14 = coverBody p k code (hexchar cs.toNat) rf a :=
    hj.slice_eq h32 coverFrameLead _ [newline] rfl rfl rfl
  have hfield : j.slice 6 4 = hexstr 4 rf :=
    hj.slice_eq h32 [0x59, 0x73, p.coverLead, hexchar k.toNat, hexchar code.toNat, hexchar cs.toNat] _
      (hexstr 6 a.toNat ++ [newline]) rfl rfl rfl
  have haddr : j.slice 10 6 = hexstr 6 a.toNat :=
    hj.slice_eq h32 ([0x59, 0x73, p.coverLead, hexchar k.toNat, hexchar code.toNat, hexchar cs.toNat] ++ hexstr 4 rf) _
      [newline] rfl rfl rfl
  have hinput : coverInput j :=
    (coverInput_iff j).2 ⟨hlen, (coverFramed_iff j).2 ⟨hbyte 0 (by decide), hbyte 1 (by decide), hbyte 16 (by decide)⟩,
      hbody ▸ coverBody_ishex hp k code cs rf a⟩
  rw [cvdecOp_of_fields hinput hlead (by rw [hcmd, hcode]), coverFields, hbody, hfield, haddr, hkey, hcmd, hsum,
    xcsum_withPlaceholder_coverBody, if_pos rfl, hexnum_hexstr, hexnum_hexstr,
    Nat.mod_eq_of_lt (show a.toNat < 16 ^ 6 from a.isLt)]
  simp only [BitVec.ofNat_toNat, BitVec.setWidth_eq]
  rfl

/-- CVDEC of an input into which the frame of CVENC was copied. -/
theorem cvdecOp_of_cvencDelivered {p : Config.Params} (hp : p.wellFormed = true) {code : Nibble} {i j : InputState}
    {rf : Nat} (hcode : isCoverCode code.toNat = true) (hfield : rollingField p i.argRc = some rf) (hlen : j.inLen = 17)
    (hcopy : ∀ k : Fin 32, k.val < 17 → j.inBuf[k] = (cvencDelivered p code i rf).outBuf[k]) :
    cvdecOp p j ResultState.cleared =
      { ResultState.cleared with
        status := 0x10
        rKey   := i.argKey
        rCmd   := code
        rRc    := BitVec.ofNat 24 (i.argRc.toNat % 0x10000)
        rAddr  := i.argAddr
        rCs    := (cvencDelivered p code i rf).rCs } := by
  have hj : holdsText j (coverFrame p i.argKey code rf i.argAddr) :=
    holdsText_of_outBuf (coverFrame_length ..) (by decide) (cvencDelivered_outBuf p code i rf) hcopy
  rw [cvdecOp_of_coverFrame hp hcode (congrArg BitVec.toNat hlen) hj, rollingField_some hfield, Nat.mod_mod]
  rfl

/-- CVENC reports OK or has a frame out exactly where it delivers. -/
theorem cvencOp_delivers {p : Config.Params} {code : Nibble} {i : InputState}
    (h : statusCode (cvencOp p code i ResultState.cleared).status = codeNibble .ok ∨
      (cvencOp p code i ResultState.cleared).outLen ≠ 0) :
    ∃ rf, isCoverCode code.toNat = true ∧ rollingField p i.argRc = some rf ∧
      cvencOp p code i ResultState.cleared = cvencDelivered p code i rf := by
  refine (cvencOp_cases p code i).resolve_right ?_
  rintro ⟨c, hc, hrefused⟩
  rw [hrefused, finish_status, statusCode_statusByte] at h
  rcases h with hok | hframe
  · exact hc ((codeNibble_eq_zero c).1 hok)
  · exact hframe rfl

/-- The checksum digit of a delivered frame. -/
theorem cvencDelivered_checksumDigit (p : Config.Params) (code : Nibble) (i : InputState) (rf : Nat) :
    hexval ((cvencDelivered p code i rf).outBuf[5]) = (cvencDelivered p code i rf).rCs.toNat := by
  have hdigit : (cvencDelivered p code i rf).outBuf[5] = hexchar (coverSum p i.argKey code rf i.argAddr).toNat := by
    simp only [cvencDelivered_outBuf]
    exact writeBytes_zero_getElem (coverFrame p i.argKey code rf i.argAddr) (k := 5)
      (by rw [coverFrame_length]; decide) (by decide)
  rw [hdigit, hexval_hexchar_nibble]
  rfl

theorem hardware_wellFormed : Config.hardware.wellFormed = true := by decide

/-! ### The statements -/

/-- Settles O34: where CVENC reports OK it delivered a frame, which CVDEC takes apart. -/
theorem coverRoundTrip : Obligations.CoverRoundTrip := by
  rintro p code i j r hp rfl hok hlen hcopy
  obtain ⟨rf, hcode, hfield, hdelivered⟩ := cvencOp_delivers (Or.inl hok)
  rw [hdelivered] at hlen hcopy ⊢
  exact cvdecOp_of_cvencDelivered hp hcode hfield hlen hcopy

/-- Settles O28: the placeholder stands in for the one byte in which two bodies differ, and the frame's digit is the
checksum CVDEC computes again. -/
theorem checksumIsIdempotent : Obligations.ChecksumIsIdempotent := by
  refine ⟨fun s s' t t' hlen hlen' hagree ht ht' => ?body, fun code s s' t t' ht hframe hlen hcopy ht' => ?frame⟩
  case body =>
    have hbefore : s'.input.slice 0 3 = s.input.slice 0 3 :=
      slice_congr _ _ 0 3 (by decide) fun k _ _ => hagree k (by omega) (by omega)
    have hafter : s'.input.slice 4 10 = s.input.slice 4 10 :=
      slice_congr _ _ 4 10 (by decide) fun k _ _ => hagree k (by omega) (by omega)
    rw [exec_next ht, exec_next ht', opOf, cvcsOp_of_body hlen, cvcsOp_of_body hlen', hbefore, hafter]
  case frame =>
    obtain rfl := exec_next ht
    obtain rfl := exec_next ht'
    have hout : (cvencOp Config.hardware code s.input ResultState.cleared).outLen = 17 := hframe
    obtain ⟨rf, hcode, hfield, hdelivered⟩ := cvencOp_delivers (Or.inr (by rw [hout]; decide))
    simp only [opOf, hdelivered] at hcopy ⊢
    rw [cvdecOp_of_cvencDelivered hardware_wellFormed hcode hfield hlen hcopy]
    exact ⟨statusCode_ok, (cvencDelivered_checksumDigit _ code s.input rf).symm⟩

end Sys2Proof.Machine
end

section
/-! SUPPORT. The inverse of the Switch packer (41_switch.md rule R104): how SWDEC ends, and the statements about it and about
the round trip that rest on it. -/

namespace Sys2Proof.Machine

/-! ### How SWDEC ends -/

/-- The inputs that pass SWDEC's checks of length and literal bytes (rule R104). -/
def switchInput (i : InputState) : Prop :=
  i.len = 15 ∧ i.inByte 0 = 0x69 ∧ i.inByte 1 = 0x73 ∧ i.inByte 14 = 0x0A

/-- The address symbols of a Switch frame are valid (rule R102). -/
def switchAddress (i : InputState) : Prop := ∀ k, 2 ≤ k → k ≤ 11 → i.inByte k = 0x30 ∨ i.inByte k = 0x46

theorem switchFramed_iff (i : InputState) :
    switchFramed i = true ↔ i.inByte 0 = 0x69 ∧ i.inByte 1 = 0x73 ∧ i.inByte 14 = 0x0A := by
  have hlead : i.slice 0 2 = [i.inByte 0, i.inByte 1] := slice_eq_map i 0 2 (by decide)
  rw [switchFramed, hlead]
  simp [switchLead, newline, and_assoc]

theorem switchInput_iff (i : InputState) : switchInput i ↔ i.len = 15 ∧ switchFramed i = true := by
  rw [switchFramed_iff, switchInput]

theorem switchAddress_iff (i : InputState) : switchAddress i ↔ (i.slice 2 10).all isSwitchSymbol = true := by
  rw [slice_all i isSwitchSymbol 2 10 (by decide)]
  simp only [isSwitchSymbol_iff]
  exact forall_congr' fun k => forall_congr' fun _ => ⟨fun h hk => h (by omega), fun h hk => h (by omega)⟩

theorem swdecOp_of_not_switchInput (p : Config.Params) {i : InputState} (h : ¬ switchInput i) (r : ResultState) :
    swdecOp p i r = finish .malformedFrame r := by
  rw [switchInput_iff] at h
  rw [swdecOp]
  by_cases hlen : i.len = 15
  · have hframed : switchFramed i = false := by simpa [hlen] using h
    rw [if_pos hframed, ite_self]
  · rw [if_pos hlen]

theorem swdecOp_of_bad_address (p : Config.Params) {i : InputState} (h : switchInput i) (haddr : ¬ switchAddress i)
    (r : ResultState) : swdecOp p i r = finish .invalidAddress r := by
  obtain ⟨hlen, hframed⟩ := (switchInput_iff i).1 h
  rw [switchAddress_iff, Bool.not_eq_true] at haddr
  rw [swdecOp, if_neg (not_not.2 hlen), if_neg (by simp [hframed]), if_pos haddr]

/-- SWDEC past its checks of the frame and the symbols, with commandbits that stand for no action. -/
theorem swdecOp_of_no_action {p : Config.Params} {i : InputState} (h : switchInput i) (haddr : switchAddress i)
    (hbits : switchActionOf p (i.slice 12 2) = none) (r : ResultState) :
    swdecOp p i r = finish .unsupportedCommand r := by
  obtain ⟨hlen, hframed⟩ := (switchInput_iff i).1 h
  rw [switchAddress_iff] at haddr
  rw [swdecOp, if_neg (not_not.2 hlen), if_neg (by rw [hframed]; decide), if_neg (by rw [haddr]; decide), hbits]

/-- The two actions have different commandbits under both values of SWITCH_OFF_BITS. -/
theorem commandBits_on_ne_off (p : Config.Params) : commandBits p .on ≠ commandBits p .off := by
  rw [commandBits, commandBits]
  cases p.switchOffBits <;> decide

theorem commandBits_injective (p : Config.Params) {a b : SwitchAction} (h : commandBits p a = commandBits p b) : a = b := by
  cases a <;> cases b
  · rfl
  · exact absurd h.symm (commandBits_on_ne_off p)
  · exact absurd h (commandBits_on_ne_off p)
  · rfl

theorem switchActionOf_commandBits (p : Config.Params) (a : SwitchAction) :
    switchActionOf p (commandBits p a) = some a := by
  cases a with
  | on => exact if_pos rfl
  | off => rw [switchActionOf, if_neg (commandBits_on_ne_off p).symm, if_pos rfl]

/-- SWDEC of a valid frame of an action. -/
theorem swdecOp_of_action {p : Config.Params} {a : SwitchAction} {i : InputState} (h : switchInput i)
    (haddr : switchAddress i) (hbits : i.slice 12 2 = commandBits p a) :
    swdecOp p i ResultState.cleared =
      { ResultState.cleared with
        status := 0x10
        outLen := 10
        outBuf := writeBytes Buffer.zero 0 (i.slice 2 10)
        rCmd   := actionNibble a } := by
  obtain ⟨hlen, hframed⟩ := (switchInput_iff i).1 h
  rw [switchAddress_iff] at haddr
  rw [swdecOp, if_neg (not_not.2 hlen), if_neg (by rw [hframed]; decide), if_neg (by rw [haddr]; decide), hbits,
    switchActionOf_commandBits, putFrame, slice_length i 2 10 (by decide)]
  exact finish_setFv_of_status_zero .ok rfl

/-! ### The round trip -/

/-- SWENC reports OK exactly on the inputs it packs. -/
theorem swencOp_valid_of_ok {p : Config.Params} {a : SwitchAction} {i : InputState}
    (h : statusCode (swencOp p a i ResultState.cleared).status = codeNibble .ok) :
    i.len = 10 ∧ ∀ k < 10, i.inByte k = 0x30 ∨ i.inByte k = 0x46 := by
  by_contra hbad
  have hinvalid : i.len ≠ 10 ∨ ∃ k < 10, i.inByte k ≠ 0x30 ∧ i.inByte k ≠ 0x46 := by
    by_contra hvalid
    push Not at hvalid
    exact hbad ⟨hvalid.1, fun k hk => or_iff_not_imp_left.2 (hvalid.2 k hk)⟩
  rw [swencOp_of_invalid p a _ hinvalid, finish_status, statusCode_statusByte] at h
  exact absurd h (by decide)

/-- SWDEC of an input that holds the frame of ten valid symbols. -/
theorem swdecOp_of_switchFrame {p : Config.Params} {a : SwitchAction} {x : List Byte} {j : InputState}
    (hx : x.length = 10) (hvalid : x.all isSwitchSymbol = true) (hlen : j.len = 15)
    (hj : holdsText j (switchFrame p a x)) :
    swdecOp p j ResultState.cleared =
      { ResultState.cleared with
        status := 0x10
        outLen := 10
        outBuf := writeBytes Buffer.zero 0 x
        rCmd   := actionNibble a } := by
  have hframe : (switchFrame p a x).length = 15 := by rw [switchFrame_length, hx]
  have h32 : (switchFrame p a x).length ≤ 32 := by rw [hframe]; decide
  have hlead : j.slice 0 2 = switchLead :=
    hj.slice_eq h32 [] switchLead (x ++ commandBits p a ++ [newline]) (by simp [switchFrame]) rfl rfl
  have haddr : j.slice 2 10 = x :=
    hj.slice_eq h32 switchLead x (commandBits p a ++ [newline]) (by simp [switchFrame]) rfl hx
  have hbits : j.slice 12 2 = commandBits p a :=
    hj.slice_eq h32 (switchLead ++ x) (commandBits p a) [newline] rfl (by rw [List.length_append, hx]; rfl)
      (commandBits_length p a)
  have hend : j.slice 14 1 = [newline] :=
    hj.slice_eq h32 (switchLead ++ x ++ commandBits p a) [newline] [] (by simp [switchFrame])
      (by rw [List.length_append, List.length_append, hx, commandBits_length]; rfl) rfl
  have hnewline : j.inByte 14 = newline := List.singleton_inj.1 ((slice_eq_map j 14 1 (by decide)).symm.trans hend)
  have hinput : switchInput j :=
    (switchInput_iff j).2 ⟨hlen, by rw [switchFramed, hlead, hnewline]; rfl⟩
  rw [swdecOp_of_action hinput ((switchAddress_iff j).2 (by rw [haddr, hvalid])) hbits, haddr]

theorem switchFrame_injective {p : Config.Params} {a a' : SwitchAction} {x x' : List Byte} (hx : x.length = 10)
    (hx' : x'.length = 10) (h : switchFrame p a x = switchFrame p a' x') : a = a' ∧ x = x' := by
  simp only [switchFrame, List.append_assoc] at h
  obtain ⟨hsymbols, hrest⟩ := List.append_inj (List.append_cancel_left h) (hx.trans hx'.symm)
  exact ⟨commandBits_injective p (List.append_cancel_right hrest), hsymbols⟩

/-! ### The statements -/

/-- Settles O38: the commandbits of the action decide, past the checks of the frame and the symbols. -/
theorem swdecDeliversTheAddress : Obligations.SwdecDeliversTheAddress := by
  intro a s hlen h0 h1 h14 hsymbols hbits
  rw [exec_eq, opOf, swdecOp_of_action ⟨hlen, h0, h1, h14⟩ hsymbols hbits]
  cases a <;> rfl

/-- Settles O39: the checks one after another; the two values of SWITCH_OFF_BITS by evaluation. -/
theorem swdecChecksInOrder : Obligations.SwdecChecksInOrder := by
  refine ⟨fun p i => ⟨fun hbad => ?framing, fun hframed hbad => ?symbols, fun hframed hvalid hon hoff => ?bits⟩,
    fun o => ?zeros, by decide, fun s t h => congrArg State.result (exec_next h)⟩
  case framing =>
    rw [swdecOp_of_not_switchInput p hbad]
    exact finish_cleared _
  case symbols =>
    rw [swdecOp_of_bad_address p hframed hbad]
    exact finish_cleared _
  case bits =>
    have hnone : switchActionOf p (i.slice 12 2) = none := (if_neg hon).trans (if_neg hoff)
    rw [swdecOp_of_no_action hframed hvalid hnone]
    exact finish_cleared _
  case zeros => cases o <;> decide

/-- Settles O40: where SWENC reports OK it delivered the frame, whose parts SWDEC reads at their places. -/
theorem switchRoundTrip : Obligations.SwitchRoundTrip := by
  refine ⟨?roundTrip, fun p a a' x x' hx hx' h => switchFrame_injective hx hx' h⟩
  rintro p a i j r rfl hok hlen hcopy
  obtain ⟨hlen10, hsymbols⟩ := swencOp_valid_of_ok hok
  rw [swencOp_of_valid p a hlen10 hsymbols] at hlen hcopy
  have hten : (i.slice 0 10).length = 10 := slice_length i 0 10 (by decide)
  have hj : holdsText j (switchFrame p a (i.slice 0 10)) :=
    holdsText_of_outBuf (by rw [switchFrame_length, hten]) (by decide) rfl hcopy
  rw [swdecOp_of_switchFrame hten ((symbols_valid_iff i).2 hsymbols) (congrArg BitVec.toNat hlen) hj]
  exact ⟨statusCode_ok, frame_of_writeBytes (by rw [hten]; decide) (by rw [hten]; rfl) rfl, rfl⟩

end Sys2Proof.Machine
end

section
/-! SUPPORT. Which operands each operation reads (30_encoding.md rule R74, 40_common.md rule R93) and which codes it leaves
(60_exceptions.md rules R181, R185), and the statements that rest on them. -/

namespace Sys2Proof.Machine

/-! ### Inputs that agree below LEN -/

/-- Two inputs with the same LEN and the same bytes below it: what the buffer operations read. -/
def sameBuffer (a b : InputState) : Prop := a.inLen = b.inLen ∧ ∀ k < a.len, a.inByte k = b.inByte k

theorem sameBuffer.len_eq {a b : InputState} (h : sameBuffer a b) : b.len = a.len :=
  congrArg BitVec.toNat h.1.symm

theorem sameBuffer.inByte_eq {a b : InputState} (h : sameBuffer a b) {k : Nat} (hk : k < a.len) :
    b.inByte k = a.inByte k :=
  (h.2 k hk).symm

theorem sameBuffer.slice_eq {a b : InputState} (h : sameBuffer a b) {x n : Nat} (hx : x + n ≤ a.len)
    (hbuf : x + n ≤ 32) : b.slice x n = a.slice x n :=
  slice_congr a b x n hbuf fun _ _ hk => h.inByte_eq (by omega)

theorem crc8Op_congr {a b : InputState} (h : sameBuffer a b) (r : ResultState) : crc8Op b r = crc8Op a r := by
  rw [crc8Op, crc8Op, h.len_eq]
  refine ite_congr rfl (fun _ => rfl) fun hfits => ?_
  rw [InputState.inBytes, InputState.inBytes, h.len_eq, h.slice_eq (by omega) (by simpa using hfits)]

theorem xcsOp_congr {a b : InputState} (h : sameBuffer a b) (r : ResultState) : xcsOp b r = xcsOp a r := by
  rw [xcsOp, xcsOp, h.len_eq]
  refine ite_congr rfl (fun _ => rfl) fun hfits => ?_
  rw [InputState.inBytes, InputState.inBytes, h.len_eq, h.slice_eq (by omega) (by simpa using hfits)]

theorem cvcsOp_congr {a b : InputState} (h : sameBuffer a b) (r : ResultState) : cvcsOp b r = cvcsOp a r := by
  rw [cvcsOp, cvcsOp, h.len_eq]
  refine ite_congr rfl (fun _ => rfl) fun hlen => ?_
  rw [h.slice_eq (by omega) (by decide)]

theorem swencOp_congr (p : Config.Params) (act : SwitchAction) {a b : InputState} (h : sameBuffer a b) (r : ResultState) :
    swencOp p act b r = swencOp p act a r := by
  rw [swencOp, swencOp, h.len_eq]
  refine ite_congr rfl (fun _ => rfl) fun hlen => ?_
  rw [h.slice_eq (by omega) (by decide)]

theorem swdecOp_congr (p : Config.Params) {a b : InputState} (h : sameBuffer a b) (r : ResultState) :
    swdecOp p b r = swdecOp p a r := by
  rw [swdecOp, swdecOp, h.len_eq]
  refine ite_congr rfl (fun _ => rfl) fun hlen => ?_
  rw [switchFramed, switchFramed, h.slice_eq (x := 0) (n := 2) (by omega) (by decide),
    h.slice_eq (x := 2) (n := 10) (by omega) (by decide), h.slice_eq (x := 12) (n := 2) (by omega) (by decide),
    h.inByte_eq (k := 14) (by omega)]

theorem cvdecOp_congr (p : Config.Params) {a b : InputState} (h : sameBuffer a b) (r : ResultState) :
    cvdecOp p b r = cvdecOp p a r := by
  rw [cvdecOp, cvdecOp, h.len_eq]
  refine ite_congr rfl (fun _ => rfl) fun hlen => ?_
  have hbyte (k : Nat) (hk : k < 17) : b.inByte k = a.inByte k := h.inByte_eq (by omega)
  have hslice (x n : Nat) (hx : x + n ≤ 17) : b.slice x n = a.slice x n := h.slice_eq (by omega) (by omega)
  have hfields : coverFields b r = coverFields a r := by
    simp only [coverFields, hslice 2 14 (by decide), hslice 6 4 (by decide), hslice 10 6 (by decide),
      hbyte 3 (by decide), hbyte 4 (by decide)]
  rw [coverFramed, coverFramed, hfields, hslice 0 2 (by decide), hslice 2 14 (by decide), hbyte 2 (by decide),
    hbyte 4 (by decide), hbyte 5 (by decide), hbyte 16 (by decide)]

/-- SNDEC looks at characters 3..12 alone (rule R152). -/
theorem sndecOp_congr (p : Config.Params) {a b : InputState} (ha : a.len = 27) (hb : b.len = 27)
    (h : ∀ k, 3 ≤ k → k ≤ 12 → b.inByte k = a.inByte k) (r : ResultState) : sndecOp p b r = sndecOp p a r := by
  have hhex (k : Nat) (h3 : 3 ≤ k) (h11 : k ≤ 11) : hexbyte b k = hexbyte a k := by
    rw [hexbyte, hexbyte, h k h3 (by omega), h (k + 1) (by omega) (by omega)]
  have hslice (x n : Nat) (h3 : 3 ≤ x) (hn : x + n ≤ 13) : b.slice x n = a.slice x n :=
    slice_congr a b x n (by omega) fun k _ _ => h k (by omega) (by omega)
  have hpayload : sensorPayload b = sensorPayload a := by
    simp only [sensorPayload, hhex 3 (by decide) (by decide), hhex 5 (by decide) (by decide),
      hhex 7 (by decide) (by decide), hhex 9 (by decide) (by decide)]
  have htrailer : sensorTrailer b = sensorTrailer a := by
    rw [sensorTrailer, sensorTrailer, hhex 11 (by decide) (by decide)]
  have hdecimal : sensorDecimal b = sensorDecimal a := by
    rw [sensorDecimal, sensorDecimal, h 6 (by decide) (by decide), h 7 (by decide) (by decide),
      h 8 (by decide) (by decide)]
  have hfields (d : ResultState) : sensorFields p b d = sensorFields p a d := by
    simp only [sensorFields, hdecimal, hhex 4 (by decide) (by decide), hhex 9 (by decide) (by decide),
      h 9 (by decide) (by decide)]
  have hstage4 : sndecStage4 b r = sndecStage4 a r := by
    rw [sndecStage4, sndecStage4, hpayload, htrailer]
  have hstage5 : sndecStage5 p b = sndecStage5 p a := by
    funext d
    rw [sndecStage5, sndecStage5, hslice 6 3 (by decide) (by decide), hfields]
  rw [sndecOp, sndecOp, ha, hb, h 3 (by decide) (by decide), hslice 4 9 (by decide) (by decide), hstage4, hstage5,
    hpayload, htrailer]

theorem sndecOp_congr_of_sameBuffer (p : Config.Params) {a b : InputState} (h : sameBuffer a b) (r : ResultState) :
    sndecOp p b r = sndecOp p a r := by
  by_cases hlen : a.len = 27
  · exact sndecOp_congr p hlen (h.len_eq.trans hlen) (fun k _ h12 => h.inByte_eq (by omega)) r
  · have hlen' : b.len ≠ 27 := fun hb => hlen (h.len_eq.symm.trans hb)
    rw [sndecOp, sndecOp, if_pos hlen, if_pos hlen']

/-! ### Inputs that agree in the Cover arguments -/

theorem putSuccessor_congr {a b : InputState} (hkey : a.argKey = b.argKey) (hrc : a.argRc = b.argRc)
    (haddr : a.argAddr = b.argAddr) (r : ResultState) : putSuccessor b r = putSuccessor a r := by
  rw [putSuccessor, putSuccessor, hkey, hrc, haddr]

theorem cvencOp_congr (p : Config.Params) (code : Nibble) {a b : InputState} (hkey : a.argKey = b.argKey)
    (hrc : a.argRc = b.argRc) (haddr : a.argAddr = b.argAddr) (r : ResultState) :
    cvencOp p code b r = cvencOp p code a r := by
  simp only [cvencOp, putSuccessor, hkey, hrc, haddr]

/-- An operation computes the same from inputs with the same operands. -/
theorem opOf_congr (i : Instr) {a b : InputState} (h : sameOperands i a b) (r : ResultState) :
    opOf i b r = opOf i a r := by
  cases i with
  | nop => rfl
  | crc8 => exact crc8Op_congr h r
  | xcs => exact xcsOp_congr h r
  | cvcs => exact cvcsOp_congr h r
  | swenc act => exact swencOp_congr _ act h r
  | swdec => exact swdecOp_congr _ h r
  | cvenc code =>
    obtain ⟨hkey, hrc, haddr⟩ := h
    exact cvencOp_congr _ code hkey hrc haddr r
  | cvdec => exact cvdecOp_congr _ h r
  | sndec => exact sndecOp_congr_of_sameBuffer _ h r
  | rcinc =>
    obtain ⟨hkey, hrc, haddr⟩ := h
    exact congrArg (fun d => finish .ok (setFv d)) (putSuccessor_congr hkey hrc haddr r)

/-! ### Status codes -/

/-- The codes an operation can end with, by their numbers (rule R181). -/
theorem codeNibble_raisedBy {i : Instr} {c : StatusCode} (h : c ∈ raisedBy i) :
    codeNibble c ∈ ([0x0, 0x1, 0x3, 0x4, 0x5, 0x6, 0xA] : List Nibble) := by
  have hall : (raisedBy i).all (fun c => decide (codeNibble c ∈ ([0x0, 0x1, 0x3, 0x4, 0x5, 0x6, 0xA] : List Nibble))) =
      true := by
    cases i <;> rfl
  exact of_decide_eq_true (List.all_eq_true.1 hall c h)

/-! ### The statements -/

/-- Settles O17: both runs compute the operation on inputs with the same operands. -/
theorem resultsDependOnListedOperandsOnly : Obligations.ResultsDependOnListedOperandsOnly := by
  intro i s s' t t' hsame ht ht'
  rw [exec_next ht, exec_next ht']
  exact opOf_congr i hsame ResultState.cleared

/-- Settles O43: SNDEC looks at characters 3..12 alone. -/
theorem sndecIgnoresTheRestOfTheLine : Obligations.SndecIgnoresTheRestOfTheLine := by
  intro s s' t t' hlen hlen' hagree ht ht'
  rw [exec_next ht, exec_next ht']
  exact sndecOp_congr _ hlen hlen' hagree ResultState.cleared

/-- Settles O18: STATUS is put together from the new CODE and its old flags, and it is the one field written. -/
theorem finishWritesTheCodeAlone : Obligations.FinishWritesTheCodeAlone := by
  intro c r
  refine ⟨?_, ?_, ?_, rfl⟩
  · rw [finish_status, statusCode_statusByte]
  · rw [finish_status, statusFv_statusByte]
  · rw [finish_status, statusCrcOk_statusByte]

/-- Settles O19: the code an operation leaves is one of its own, and none of those is the host's. -/
theorem operationsRaiseTheirOwnCodes : Obligations.OperationsRaiseTheirOwnCodes := by
  intro i s t h
  have hdisjoint : ∀ n ∈ ([0x0, 0x1, 0x3, 0x4, 0x5, 0x6, 0xA] : List Nibble),
      n ∉ ([0x2, 0x7, 0x8, 0x9, 0xB, 0xC, 0xD, 0xE, 0xF] : List Nibble) := by decide
  obtain ⟨c, hmem, hcode⟩ := opOf_statusCode_mem i s.input
  rw [exec_next h, hcode]
  exact ⟨List.mem_map_of_mem hmem, hdisjoint _ (codeNibble_raisedBy hmem)⟩

end Sys2Proof.Machine
end

section
/-! SUPPORT. The Sensor unpacker (43_sensor.md sections 2 and 3): how SNDEC ends, what its fields hold, and the statements that
rest on it. -/

namespace Sys2Proof.Machine

/-! ### How SNDEC ends -/

/-- The inputs that pass SNDEC's checks of length, marker and hex digits (rule R160). -/
def sensorInput (i : InputState) : Prop :=
  i.len = 27 ∧ i.inByte 3 = 0x39 ∧ ∀ k, 4 ≤ k → k ≤ 12 → ishex (i.inByte k) = true

/-- The temperature digits are decimal (rule R162). -/
def sensorDecimals (i : InputState) : Prop := ∀ k, 6 ≤ k → k ≤ 8 → isdec (i.inByte k) = true

theorem sensorDigits_iff (i : InputState) :
    (i.slice 4 9).all ishex = true ↔ ∀ k, 4 ≤ k → k ≤ 12 → ishex (i.inByte k) = true := by
  rw [slice_all i ishex 4 9 (by decide)]
  exact forall_congr' fun k => forall_congr' fun _ => ⟨fun h hk => h (by omega), fun h hk => h (by omega)⟩

theorem sensorDecimals_iff (i : InputState) : (i.slice 6 3).all isdec = true ↔ sensorDecimals i := by
  rw [slice_all i isdec 6 3 (by decide)]
  exact forall_congr' fun k => forall_congr' fun _ => ⟨fun h hk => h (by omega), fun h hk => h (by omega)⟩

theorem sndecOp_of_bad_length (p : Config.Params) {i : InputState} (h : i.len ≠ 27) (r : ResultState) :
    sndecOp p i r = finish .malformedFrame r := if_pos h

theorem sndecOp_of_bad_marker (p : Config.Params) {i : InputState} (hlen : i.len = 27) (h : i.inByte 3 ≠ 0x39)
    (r : ResultState) : sndecOp p i r = finish .badStartMarker r :=
  (if_neg (not_not.2 hlen)).trans (if_pos h)

theorem sndecOp_of_bad_digit (p : Config.Params) {i : InputState} (hlen : i.len = 27) (hmarker : i.inByte 3 = 0x39)
    (h : ¬ ∀ k, 4 ≤ k → k ≤ 12 → ishex (i.inByte k) = true) (r : ResultState) :
    sndecOp p i r = finish .malformedFrame r := by
  rw [← sensorDigits_iff, Bool.not_eq_true] at h
  exact (if_neg (not_not.2 hlen)).trans ((if_neg (not_not.2 hmarker)).trans (if_pos h))

/-- SNDEC past its checks: the CRC is compared, and CRC_POLICY decides whether a mismatch ends it. -/
theorem sndecOp_of_sensorInput (p : Config.Params) {i : InputState} (h : sensorInput i) (r : ResultState) :
    sndecOp p i r =
      if crc8f (sensorPayload i) ≠ sensorTrailer i ∧ p.crcPolicy = .reject then
        finish .checksumMismatch (sndecStage4 i r)
      else sndecStage5 p i (sndecStage4 i r) := by
  obtain ⟨hlen, hmarker, hdigits⟩ := h
  have hall : (i.slice 4 9).all ishex = true := (sensorDigits_iff i).2 hdigits
  exact (if_neg (not_not.2 hlen)).trans ((if_neg (not_not.2 hmarker)).trans (if_neg (by rw [hall]; decide)))

theorem statusCrcOk_sndecStage4 (i : InputState) :
    statusCrcOk (sndecStage4 i ResultState.cleared).status = (crc8f (sensorPayload i) == sensorTrailer i) :=
  statusCrcOk_statusByte _ _ _

theorem statusFv_sndecStage4 (i : InputState) : statusFv (sndecStage4 i ResultState.cleared).status = false :=
  (statusFv_statusByte _ _ _).trans statusFv_zero

/-- The result SNDEC leaves with the comparison alone: the CRC, the trailer and CRC_OK, and a status code (rule R160). -/
theorem finish_sndecStage4 (c : StatusCode) (i : InputState) :
    finish c (sndecStage4 i ResultState.cleared) =
      { ResultState.cleared with
        status := statusByte (crc8f (sensorPayload i) == sensorTrailer i) false (codeNibble c)
        rCrc   := crc8f (sensorPayload i)
        rCrcRx := sensorTrailer i } := by
  rw [finish_eq, statusCrcOk_sndecStage4, statusFv_sndecStage4]
  rfl

/-- The result SNDEC delivers. -/
def sndecDelivered (p : Config.Params) (i : InputState) : ResultState :=
  { sensorFields p i ResultState.cleared with
    status := if crc8f (sensorPayload i) = sensorTrailer i then 0x30 else 0x16
    rCrc   := crc8f (sensorPayload i)
    rCrcRx := sensorTrailer i }

theorem finish_setFv_sensorFields (c : StatusCode) (p : Config.Params) (i : InputState) :
    finish c (setFv (sensorFields p i (sndecStage4 i ResultState.cleared))) =
      { sensorFields p i ResultState.cleared with
        status := statusByte (crc8f (sensorPayload i) == sensorTrailer i) true (codeNibble c)
        rCrc   := crc8f (sensorPayload i)
        rCrcRx := sensorTrailer i } := by
  have hcrc : statusCrcOk (sensorFields p i (sndecStage4 i ResultState.cleared)).status =
      (crc8f (sensorPayload i) == sensorTrailer i) := statusCrcOk_sndecStage4 i
  rw [finish_setFv_eq, hcrc]
  rfl

theorem sndecStage5_of_bad_decimal (p : Config.Params) {i : InputState} (h : ¬ sensorDecimals i) (r : ResultState) :
    sndecStage5 p i r = finish .malformedFrame r := by
  rw [← sensorDecimals_iff, Bool.not_eq_true] at h
  exact if_pos h

theorem sndecStage5_of_decimals (p : Config.Params) {i : InputState} (h : sensorDecimals i) :
    sndecStage5 p i (sndecStage4 i ResultState.cleared) = sndecDelivered p i := by
  have hall : (i.slice 6 3).all isdec = true := (sensorDecimals_iff i).2 h
  rw [sndecStage5, if_neg (by rw [hall]; decide), statusCrcOk_sndecStage4, finish_setFv_sensorFields,
    finish_setFv_sensorFields, sndecDelivered]
  by_cases hmatch : crc8f (sensorPayload i) = sensorTrailer i
  · rw [beq_iff_eq.2 hmatch, if_neg (by decide), if_pos hmatch]
    rfl
  · rw [beq_eq_false_iff_ne.2 hmatch, if_pos rfl, if_neg hmatch]
    rfl

/-- SNDEC delivers the reading where the CRC matches or the policy lets a mismatch through. -/
theorem sndecOp_of_reading {p : Config.Params} {i : InputState} (h : sensorInput i) (hdec : sensorDecimals i)
    (hpolicy : crc8f (sensorPayload i) = sensorTrailer i ∨ p.crcPolicy = .logOnly) :
    sndecOp p i ResultState.cleared = sndecDelivered p i := by
  have hgoes : ¬ (crc8f (sensorPayload i) ≠ sensorTrailer i ∧ p.crcPolicy = .reject) := by
    rintro ⟨hne, hreject⟩
    rcases hpolicy with hmatch | hlog
    · exact hne hmatch
    · rw [hlog] at hreject
      cases hreject
  rw [sndecOp_of_sensorInput p h, if_neg hgoes, sndecStage5_of_decimals p hdec]

/-- How SNDEC can end: with a code alone, with the comparison alone, or with a reading. -/
theorem sndecOp_cases (p : Config.Params) (i : InputState) :
    (∃ c ∈ raisedBy .sndec, sndecOp p i ResultState.cleared = finish c ResultState.cleared) ∨
    (∃ c ∈ raisedBy .sndec, sndecOp p i ResultState.cleared = finish c (sndecStage4 i ResultState.cleared)) ∨
    (sensorInput i ∧ sensorDecimals i ∧ sndecOp p i ResultState.cleared = sndecDelivered p i) := by
  by_cases hlen : i.len = 27
  case neg => exact Or.inl ⟨_, by decide, sndecOp_of_bad_length p hlen _⟩
  by_cases hmarker : i.inByte 3 = 0x39
  case neg => exact Or.inl ⟨_, by decide, sndecOp_of_bad_marker p hlen hmarker _⟩
  by_cases hdigits : ∀ k, 4 ≤ k → k ≤ 12 → ishex (i.inByte k) = true
  case neg => exact Or.inl ⟨_, by decide, sndecOp_of_bad_digit p hlen hmarker hdigits _⟩
  have hinput : sensorInput i := ⟨hlen, hmarker, hdigits⟩
  rw [sndecOp_of_sensorInput p hinput]
  split
  case isTrue => exact Or.inr (Or.inl ⟨_, by decide, rfl⟩)
  case isFalse =>
    by_cases hdec : sensorDecimals i
    · exact Or.inr (Or.inr ⟨hinput, hdec, sndecStage5_of_decimals p hdec⟩)
    · exact Or.inr (Or.inl ⟨_, by decide, sndecStage5_of_bad_decimal p hdec _⟩)

/-! ### The fields of a reading -/

/-- Under LITERAL the flag is bit 7 of a number that has bit 3 alone (rule R165). -/
theorem weakFlag_literal (d : Nat) : weakFlag .literal d = false := by
  have hsmall : d &&& 0x8 < 2 ^ 7 := lt_of_le_of_lt Nat.and_le_right (by decide)
  rw [weakFlag, Nat.shiftRight_eq_div_pow, Nat.div_eq_of_lt hsmall]
  rfl

/-- A bit masked out and shifted down. -/
theorem masked_bit (n k : Nat) : ((n &&& 2 ^ k) >>> k == 1) = decide (n / 2 ^ k % 2 = 1) := by
  have hone : 2 ^ k >>> k = 1 := by rw [Nat.shiftRight_eq_div_pow, Nat.div_self (Nat.two_pow_pos k)]
  rw [Nat.shiftRight_and_distrib, hone, Nat.and_one_is_mod, Nat.shiftRight_eq_div_pow]
  rfl

/-- Under BIT7 it is bit 3 of the digit, bit 7 of the byte (rule R165). -/
theorem weakFlag_bit7 (d : Nat) {e : Nat} (he : e < 16) : weakFlag .bit7 d = (16 * d + e).testBit 7 := by
  have hbit : (16 * d + e) / 2 ^ 7 = d / 2 ^ 3 := by omega
  rw [Nat.testBit_eq_decide_div_mod_eq, hbit]
  exact masked_bit d 3

theorem newBatteryFlag_eq (pair : Nat) : newBatteryFlag pair = decide (pair / 2 % 2 = 1) := masked_bit pair 1

/-- The three digits of the temperature are below 1000 (rule R162). -/
theorem decval_le {c : Byte} (h : isdec c = true) : decval c ≤ 9 := by
  simp only [isdec, Bool.and_eq_true, decide_eq_true_eq] at h
  rw [decval]
  omega

theorem sensorDecimal_le {i : InputState} (h : sensorDecimals i) : sensorDecimal i ≤ 999 := by
  have h6 := decval_le (h 6 (by decide) (by decide))
  have h7 := decval_le (h 7 (by decide) (by decide))
  have h8 := decval_le (h 8 (by decide) (by decide))
  rw [sensorDecimal]
  omega

/-- R_TEMP holds D - 400 exactly: every value is in the range of the register. -/
theorem toInt_temperature {d : Nat} (h : d ≤ 999) : (BitVec.ofInt 16 ((d : Int) - 400)).toInt = (d : Int) - 400 := by
  rw [BitVec.toInt_ofInt]
  exact Int.bmod_eq_of_le (by omega) (by omega)

theorem deviceId_eq (pair : Nat) : (pair &&& 0x3F) >>> 2 = pair % 64 / 4 := by
  rw [Nat.shiftRight_eq_div_pow]
  exact congrArg (· / 4) (Nat.and_two_pow_sub_one_eq_mod pair 6)

theorem humidity_eq (pair : Nat) : pair &&& 0x7F = pair % 128 := Nat.and_two_pow_sub_one_eq_mod pair 7

theorem deviceId_toNat (pair : Nat) : (BitVec.ofNat 6 (pair % 64 / 4)).toNat = pair % 64 / 4 := by
  rw [BitVec.toNat_ofNat]
  omega

/-- R_SFLAGS with WB = 0, by its number. -/
theorem sflagsOf_number (h pair : Nat) :
    sflagsOf false (decide (pair / 2 % 2 = 1)) (humidityValid h) =
      BitVec.ofNat 3 ((if h = 106 then 0 else 1) + 2 * (pair / 2 % 2)) := by
  have hhum : humidityValid h = decide (h ≠ 106) := by
    rw [humidityValid]
    by_cases hh : h = 106 <;> simp [hh]
  rw [hhum]
  rcases Nat.mod_two_eq_zero_or_one (pair / 2) with hp | hp <;> by_cases hh : h = 106 <;> rw [hp] <;> simp [hh] <;> rfl

/-- A reading of this hardware, every field in plain arithmetic. -/
theorem sensorFields_hardware (i : InputState) (r : ResultState) :
    sensorFields Config.hardware i r =
      { r with
        rDevId  := BitVec.ofNat 6 (hexbyte i 4 % 64 / 4)
        rTemp   := BitVec.ofInt 16 ((sensorDecimal i : Int) - 400)
        rHum    := BitVec.ofNat 7 (hexbyte i 9 % 128)
        rSFlags := BitVec.ofNat 3 ((if hexbyte i 9 % 128 = 106 then 0 else 1) + 2 * (hexbyte i 4 / 2 % 2))
        rBatt   := if hexbyte i 4 / 2 % 2 = 1 then 100 else 50 } := by
  have hweak : weakFlag Config.hardware.weakBatMode (hexval (i.inByte 9)) = false := weakFlag_literal _
  have hbatt : batteryPercent false (decide (hexbyte i 4 / 2 % 2 = 1)) = if hexbyte i 4 / 2 % 2 = 1 then 100 else 50 :=
    (if_neg Bool.false_ne_true).trans (if_congr decide_eq_true_iff rfl rfl)
  simp only [sensorFields]
  rw [hweak, newBatteryFlag_eq, deviceId_eq, humidity_eq, sflagsOf_number, hbatt]

theorem sndecDelivered_rDevId (p : Config.Params) (i : InputState) :
    (sndecDelivered p i).rDevId.toNat = hexbyte i 4 % 64 / 4 := by
  rw [← deviceId_toNat, ← deviceId_eq]
  rfl

theorem sndecDelivered_rTemp (p : Config.Params) {i : InputState} (h : sensorDecimals i) :
    (sndecDelivered p i).rTemp.toInt = (sensorDecimal i : Int) - 400 :=
  toInt_temperature (sensorDecimal_le h)

theorem sensorDecimal_cast (i : InputState) :
    (sensorDecimal i : Int) =
      100 * (decval (i.inByte 6) : Int) + 10 * decval (i.inByte 7) + decval (i.inByte 8) := by
  rw [sensorDecimal]
  push_cast
  rfl

theorem temperature_range {d : Nat} (h : d ≤ 999) : -400 ≤ (d : Int) - 400 ∧ (d : Int) - 400 ≤ 599 := by
  omega

/-- Bits 5:2 of a pair of hex digits, from the digits (rule R161). -/
theorem deviceId_of_digits (a : Nat) {b : Nat} (h : b < 16) :
    (16 * a + b) % 64 / 4 = 4 * (a % 4) + b / 4 ∧ 4 * (a % 4) + b / 4 ≤ 15 := by
  omega

/-! ### The statements -/

/-- Settles O41: the delivered reading, in plain arithmetic for LITERAL. -/
theorem sndecDeliversTheReading : Obligations.SndecDeliversTheReading := by
  intro s hlen hmarker hdigits hdecimals
  refine ⟨_, _, _, _, _, rfl, rfl, rfl, rfl, rfl, ?_⟩
  rw [exec_eq, opOf, sndecOp_of_reading ⟨hlen, hmarker, hdigits⟩ hdecimals (Or.inr rfl), sndecDelivered,
    sensorFields_hardware]
  rfl

/-- Settles O42: the checks one after another; the last leaves what the comparison wrote. -/
theorem sndecChecksInOrder : Obligations.SndecChecksInOrder := by
  intro s
  refine ⟨fun hlen => ?length, fun hlen hmarker => ?marker, fun hlen hmarker hbad => ?digit,
    fun hlen hmarker hdigits hbad => ?decimal⟩
  case length =>
    rw [exec_eq, opOf, sndecOp_of_bad_length _ hlen, finish_cleared]
    rfl
  case marker =>
    rw [exec_eq, opOf, sndecOp_of_bad_marker _ hlen hmarker, finish_cleared]
    rfl
  case digit =>
    obtain ⟨k, hlow, hhigh, hk⟩ := hbad
    have hnot : ¬ ∀ k, 4 ≤ k → k ≤ 12 → ishex (s.input.inByte k) = true := fun hall =>
      Bool.false_ne_true (hk.symm.trans (hall k hlow hhigh))
    rw [exec_eq, opOf, sndecOp_of_bad_digit _ hlen hmarker hnot, finish_cleared]
    rfl
  case decimal =>
    obtain ⟨k, hlow, hhigh, hk⟩ := hbad
    have hnot : ¬ sensorDecimals s.input := fun hall => Bool.false_ne_true (hk.symm.trans (hall k hlow hhigh))
    have hgoes : ¬ (crc8f (sensorPayload s.input) ≠ sensorTrailer s.input ∧ Config.hardware.crcPolicy = .reject) :=
      fun h => nomatch h.2
    rw [exec_eq, opOf, sndecOp_of_sensorInput _ ⟨hlen, hmarker, hdigits⟩, if_neg hgoes,
      sndecStage5_of_bad_decimal _ hnot, finish_sndecStage4]
    by_cases hmatch : crc8f (sensorPayload s.input) = sensorTrailer s.input
    · rw [beq_iff_eq.2 hmatch, if_pos hmatch]
      rfl
    · rw [beq_eq_false_iff_ne.2 hmatch, if_neg hmatch]
      rfl

/-- FV stands exactly where a reading is delivered. -/
theorem sndecOp_reading_of_fv {p : Config.Params} {i : InputState}
    (h : statusFv (sndecOp p i ResultState.cleared).status = true) :
    sensorInput i ∧ sensorDecimals i ∧ sndecOp p i ResultState.cleared = sndecDelivered p i := by
  rcases sndecOp_cases p i with ⟨c, -, hend⟩ | ⟨c, -, hend⟩ | hread
  · rw [hend, finish_status, statusFv_statusByte] at h
    exact absurd h (by decide)
  · rw [hend, finish_status, statusFv_statusByte, statusFv_sndecStage4] at h
    exact absurd h (by decide)
  · exact hread

/-- Settles O44: with FV a reading was delivered, from digits that keep the temperature and the device id in range. -/
theorem sndecReadingIsExact : Obligations.SndecReadingIsExact := by
  intro s t h hfv
  rw [exec_next h] at hfv ⊢
  obtain ⟨⟨-, -, hdigits⟩, hdecimals, hend⟩ := sndecOp_reading_of_fv (p := Config.hardware) hfv
  have hdigit : hexval (s.input.inByte 5) < 16 := hexval_lt _ (hdigits 5 (by decide) (by decide))
  obtain ⟨hlow, hhigh⟩ := temperature_range (sensorDecimal_le hdecimals)
  obtain ⟨hdev, hle⟩ := deviceId_of_digits (hexval (s.input.inByte 4)) hdigit
  rw [opOf, hend, sndecDelivered_rTemp _ hdecimals, sndecDelivered_rDevId, hexbyte, hdev]
  exact ⟨congrArg (· - 400) (sensorDecimal_cast s.input), hlow, hhigh, rfl, hle⟩

/-- Settles O45: LITERAL by the size of a masked digit, BIT7 by the place of its bit 3 in the byte. -/
theorem weakFlagByMode : Obligations.WeakFlagByMode :=
  ⟨rfl, fun d _ => ⟨weakFlag_literal d, fun _ he => weakFlag_bit7 d he⟩⟩

/-- Settles O46: on a mismatch REJECT ends with the comparison, LOG_ONLY goes on to the reading. -/
theorem crcPolicyDecidesDelivery : Obligations.CrcPolicyDecidesDelivery := by
  refine ⟨rfl, fun p i hlen hmarker hdigits hdecimals hne => ⟨fun hreject => ?reject, fun hlog => ?logOnly⟩⟩
  case reject =>
    rw [sndecOp_of_sensorInput p ⟨hlen, hmarker, hdigits⟩, if_pos ⟨hne, hreject⟩, finish_sndecStage4,
      beq_eq_false_iff_ne.2 hne]
    rfl
  case logOnly =>
    rw [sndecOp_of_reading ⟨hlen, hmarker, hdigits⟩ hdecimals (Or.inr hlog), sndecDelivered, if_neg hne]

end Sys2Proof.Machine
end

section
/-! SUPPORT. The known-bad Sensor frame of 43_sensor.md section 3, character by character, and the statement about it. -/

namespace Sys2Proof.Machine

/-! ### The frame -/

/-- "N019ECE33398CAAAA0000A17C69". -/
def knownBadFrame : List Byte :=
  [0x4E, 0x30, 0x31, 0x39, 0x45, 0x43, 0x45, 0x33, 0x33, 0x33, 0x39, 0x38, 0x43,
   0x41, 0x41, 0x41, 0x41, 0x30, 0x30, 0x30, 0x30, 0x41, 0x31, 0x37, 0x43, 0x36, 0x39]

theorem holdsText_of_slice {i : InputState} {l : List Byte} {n : Nat} (h : i.slice 0 n = l) : holdsText i l := by
  intro k hk
  subst h
  rw [slice_getElem, Nat.zero_add]

theorem holdsText.hexbyte_eq {i : InputState} {l : List Byte} (h : holdsText i l) (k : Nat) (hk : k + 1 < l.length) :
    hexbyte i k = 16 * hexval l[k] + hexval l[k + 1] := by
  rw [hexbyte, h k (by omega), h (k + 1) hk]

theorem knownBadFrame_payload {i : InputState} (h : holdsText i knownBadFrame) :
    sensorPayload i = [0x9E, 0xCE, 0x33, 0x39] := by
  rw [sensorPayload, h.hexbyte_eq 3 (by decide), h.hexbyte_eq 5 (by decide), h.hexbyte_eq 7 (by decide),
    h.hexbyte_eq 9 (by decide)]
  rfl

theorem knownBadFrame_trailer {i : InputState} (h : holdsText i knownBadFrame) : sensorTrailer i = 0x8C := by
  rw [sensorTrailer, h.hexbyte_eq 11 (by decide)]
  rfl

/-- The CRC of its payload, with the register after each byte. -/
theorem crc8f_knownBadPayload : crc8f [0x9E, 0xCE, 0x33, 0x39] = 0xDE :=
  calc [0x9E, 0xCE, 0x33, 0x39].foldl crcByte 0x00
    _ = [0xCE, 0x33, 0x39].foldl crcByte 0x26 := foldl_crcByte_cons rfl _
    _ = [0x33, 0x39].foldl crcByte 0x78       := foldl_crcByte_cons rfl _
    _ = [0x39].foldl crcByte 0xD7             := foldl_crcByte_cons rfl _
    _ = 0xDE                                  := foldl_crcByte_cons rfl _

/-- It passes every check but that of its temperature digits: character 6 is 'E'. -/
theorem knownBadFrame_sensorInput {i : InputState} (hlen : i.len = 27) (h : holdsText i knownBadFrame) :
    sensorInput i := by
  have hdigits : i.slice 4 9 = [0x45, 0x43, 0x45, 0x33, 0x33, 0x33, 0x39, 0x38, 0x43] :=
    h.slice_eq (by decide) (knownBadFrame.take 4) _ (knownBadFrame.drop 13) rfl rfl rfl
  exact ⟨hlen, h 3 (by decide), (sensorDigits_iff i).1 (by rw [hdigits]; decide)⟩

theorem knownBadFrame_not_decimals {i : InputState} (h : holdsText i knownBadFrame) : ¬ sensorDecimals i := by
  intro hall
  have hsix : isdec (i.inByte 6) = true := hall 6 (by decide) (by decide)
  rw [h 6 (by decide)] at hsix
  exact absurd hsix (by decide)

/-! ### The statement -/

/-- Settles O47: the comparison fails on the frame; REJECT ends there, LOG_ONLY at the temperature digits. -/
theorem knownBadFrameIsFlagged : Obligations.KnownBadFrameIsFlagged := by
  refine ⟨crc8f_knownBadPayload, fun p i hlen hslice => ?_⟩
  have htext : holdsText i knownBadFrame := holdsText_of_slice hslice
  have hcrc : crc8f (sensorPayload i) = 0xDE := by rw [knownBadFrame_payload htext, crc8f_knownBadPayload]
  rw [sndecOp_of_sensorInput p (knownBadFrame_sensorInput hlen htext),
    sndecStage5_of_bad_decimal p (knownBadFrame_not_decimals htext), finish_sndecStage4, finish_sndecStage4, hcrc,
    knownBadFrame_trailer htext]
  cases p.crcPolicy with
  | logOnly => exact if_neg fun h => nomatch h.2
  | reject => exact if_pos ⟨by decide, rfl⟩

end Sys2Proof.Machine
end

section
/-! SUPPORT. The two invariants of the machine: the record agrees with CMD and STATUS, and the result registers hold what the
spec says they hold (10_state.md sections 3 and 4, 60_exceptions.md section 1). What an operation leaves meets the second,
operation by operation; the step adds what accesses and reset do. -/

namespace Sys2Proof.Machine

/-! ### The invariants on the parts of the state they speak of -/

/-- `recordAgrees` on CMD, STATUS and the record alone. -/
def recordSays (cmd status : Byte) (history : List PortEvent) : Prop :=
  match lastCommand history with
  | none        => cmd = 0x00 ∧ status = 0x0F
  | some (w, x) => cmd = w ∧ status = x

theorem recordAgrees_iff (s : State) : recordAgrees s ↔ recordSays s.input.cmd s.result.status s.history := Iff.rfl

/-- A write at an offset other than CMD's leaves CMD. -/
theorem storeByte_keeps_cmd (i : InputState) (v : Byte) {p : PortByte} (h : p ≠ .cmd) : (storeByte i v p).cmd = i.cmd := by
  cases p with
  | cmd => exact absurd rfl h
  | _ => rfl

theorem perform_keeps_record {e : HostEvent} {s t : State} (h : recordAgrees s) (ht : perform e s = .next t) :
    recordAgrees t := by
  rcases perform_cases ht with ⟨off, rfl, -⟩ | ⟨off, v, hwrite, -⟩ | ⟨-, rfl⟩
  · exact h
  · rcases hostWrite_cases hwrite with ⟨rfl, rfl⟩ | ⟨hoff, rfl⟩
    · exact ⟨rfl, rfl⟩
    · have hcmd : (s.store off v).input.cmd = s.input.cmd :=
        storeByte_keeps_cmd s.input v fun hmap => hoff ((portMap_eq_cmd off).1 hmap)
      rw [recordAgrees_iff, hcmd]
      exact h
  · exact ⟨rfl, rfl⟩

/-- `resultInv` on the result state alone. -/
def resultHolds (r : ResultState) : Prop :=
  statusLegal r ∧ outputShaped r ∧ rangesHeld r ∧ fieldsValidOrZero r ∧ crcVerdictTrue r

/-- The codes that rule R181 has the block write, NONE apart. -/
def legalCode (c : StatusCode) : Prop :=
  codeNibble c ∈ ([0x0, 0x1, 0x3, 0x4, 0x5, 0x6, 0x9, 0xA, 0xF] : List Nibble)

theorem legalCode_of_raisedBy {i : Instr} {c : StatusCode} (h : c ∈ raisedBy i) : legalCode c := by
  have hlegal : ∀ n ∈ ([0x0, 0x1, 0x3, 0x4, 0x5, 0x6, 0xA] : List Nibble),
      n ∈ ([0x0, 0x1, 0x3, 0x4, 0x5, 0x6, 0x9, 0xA, 0xF] : List Nibble) := by decide
  exact hlegal _ (codeNibble_raisedBy h)

theorem statusLegal_finish {c : StatusCode} (h : legalCode c) (r : ResultState) : statusLegal (finish c r) := by
  obtain ⟨h7, h6⟩ := statusByte_high (statusCrcOk r.status) (statusFv r.status) (codeNibble c)
  refine ⟨h7, h6, ?_⟩
  rw [finish_status, statusCode_statusByte]
  exact h

/-- No field output is delivered: what FV = 0 promises (rules R24, R182). -/
def noFields (r : ResultState) : Prop := noFrame r ∧ noCoverState r ∧ r.rCmd = 0 ∧ r.rCs = 0 ∧ noReading r

theorem noFields_cleared : noFields ResultState.cleared :=
  ⟨noFrame_cleared, noCoverState_cleared, rfl, rfl, noReading_cleared⟩

theorem outputShaped_of_noFrame {r : ResultState} (h : noFrame r) : outputShaped r := by
  obtain ⟨hlen, hbuf⟩ := h
  refine ⟨by rw [hlen]; exact List.Mem.head _, fun k _ => ?_⟩
  simp only [hbuf]
  exact bufferZero_getElem k.val k.isLt

/-- The lengths of the frames that are delivered: SWDEC's, SWENC's and CVENC's (rule R42). -/
theorem outputShaped_writeBytes {r : ResultState} {l : List Byte} (hl : l.length = 10 ∨ l.length = 15 ∨ l.length = 17)
    (hlen : r.outLen = BitVec.ofNat 6 l.length) (hbuf : r.outBuf = writeBytes Buffer.zero 0 l) : outputShaped r := by
  refine ⟨?_, fun k hk => ?_⟩
  · rw [hlen]
    rcases hl with hl | hl | hl <;> (rw [hl]; decide)
  · rw [hlen, BitVec.toNat_ofNat, Nat.mod_eq_of_lt (by omega)] at hk
    simp only [hbuf]
    exact (writeBytes_getElem l Buffer.zero 0 k.val k.isLt).trans
      ((dif_neg (by omega)).trans (bufferZero_getElem k.val k.isLt))

theorem rangesHeld_of_noReading {r : ResultState} (hcmd : r.rCmd.toNat ≤ 10) (h : noReading r) : rangesHeld r := by
  obtain ⟨hdev, htemp, -, hflags, hbatt⟩ := h
  rw [rangesHeld, hdev, htemp, hflags, hbatt]
  exact ⟨hcmd, by decide⟩

theorem rangesHeld_of_noFields {r : ResultState} (h : noFields r) : rangesHeld r := by
  obtain ⟨-, -, hcmd, -, hread⟩ := h
  exact rangesHeld_of_noReading (by rw [hcmd]; decide) hread

/-- An operation that delivers no field. -/
theorem resultHolds_failed {c : StatusCode} {d : ResultState} (hcode : legalCode c) (hfields : noFields d)
    (hcrc : crcVerdictTrue d) : resultHolds (finish c d) := by
  refine ⟨statusLegal_finish hcode d, outputShaped_of_noFrame hfields.1, rangesHeld_of_noFields hfields,
    fun _ => hfields, fun hok => ?_⟩
  rw [finish_status, statusCrcOk_statusByte] at hok
  exact hcrc hok

/-- An operation that delivers its fields. -/
theorem resultHolds_delivered {c : StatusCode} {d : ResultState} (hcode : legalCode c) (hshape : outputShaped d)
    (hranges : rangesHeld d) (hcrc : crcVerdictTrue d) : resultHolds (finish c (setFv d)) := by
  refine ⟨statusLegal_finish hcode _, hshape, hranges, fun hfv => ?_, fun hok => ?_⟩
  · rw [finish_status, setFv_status, statusFv_statusByte, statusFv_statusByte] at hfv
    cases hfv
  · rw [finish_status, setFv_status, statusCrcOk_statusByte, statusCrcOk_statusByte] at hok
    exact hcrc hok

theorem crcVerdictTrue_of_status_zero {d : ResultState} (h : d.status = 0x00) : crcVerdictTrue d := by
  intro hok
  rw [h] at hok
  cases hok

theorem resultHolds_refused {c : StatusCode} (h : legalCode c) : resultHolds (finish c ResultState.cleared) :=
  resultHolds_failed h noFields_cleared (crcVerdictTrue_of_status_zero rfl)

/-- One check of an operation, before anything is written. -/
theorem resultHolds_check {P : Prop} [Decidable P] {r : ResultState} (i : Instr) {c : StatusCode} (hcode : c ∈ raisedBy i)
    (h : ¬ P → resultHolds r) : resultHolds (if P then finish c ResultState.cleared else r) :=
  iteInduction (fun _ => resultHolds_refused (legalCode_of_raisedBy hcode)) h

/-- An operation that delivers no frame, no command and no reading. -/
theorem resultHolds_value {d : ResultState} (i : Instr) {c : StatusCode} (hcode : c ∈ raisedBy i)
    (hstatus : d.status = 0x00) (hframe : noFrame d) (hcmd : d.rCmd.toNat ≤ 10) (hread : noReading d) :
    resultHolds (finish c (setFv d)) :=
  resultHolds_delivered (legalCode_of_raisedBy hcode) (outputShaped_of_noFrame hframe)
    (rangesHeld_of_noReading hcmd hread) (crcVerdictTrue_of_status_zero hstatus)

/-- An operation that delivers a frame and a command. -/
theorem resultHolds_frame {d : ResultState} {l : List Byte} (i : Instr) {c : StatusCode} (hcode : c ∈ raisedBy i)
    (hl : l.length = 10 ∨ l.length = 15 ∨ l.length = 17) (hlen : d.outLen = BitVec.ofNat 6 l.length)
    (hbuf : d.outBuf = writeBytes Buffer.zero 0 l) (hstatus : d.status = 0x00) (hcmd : d.rCmd.toNat ≤ 10)
    (hread : noReading d) : resultHolds (finish c (setFv d)) :=
  resultHolds_delivered (legalCode_of_raisedBy hcode) (outputShaped_writeBytes hl hlen hbuf)
    (rangesHeld_of_noReading hcmd hread) (crcVerdictTrue_of_status_zero hstatus)

/-! ### The operations one by one -/

theorem nopOp_holds (inp : InputState) : resultHolds (nopOp inp ResultState.cleared) :=
  resultHolds_refused (legalCode_of_raisedBy (i := .nop) (List.Mem.head _))

theorem crc8Op_holds (inp : InputState) : resultHolds (crc8Op inp ResultState.cleared) :=
  resultHolds_check .crc8 (List.Mem.head _) fun _ =>
    resultHolds_value .crc8 (List.Mem.tail _ (List.Mem.head _)) rfl noFrame_cleared (Nat.zero_le _) noReading_cleared

theorem xcsOp_holds (inp : InputState) : resultHolds (xcsOp inp ResultState.cleared) :=
  resultHolds_check .xcs (List.Mem.head _) fun _ =>
    resultHolds_value .xcs (List.Mem.tail _ (List.Mem.head _)) rfl noFrame_cleared (Nat.zero_le _) noReading_cleared

theorem cvcsOp_holds (inp : InputState) : resultHolds (cvcsOp inp ResultState.cleared) :=
  resultHolds_check .cvcs (List.Mem.head _) fun _ =>
    resultHolds_value .cvcs (List.Mem.tail _ (List.Mem.head _)) rfl noFrame_cleared (Nat.zero_le _) noReading_cleared

theorem rcincOp_holds (inp : InputState) : resultHolds (rcincOp inp ResultState.cleared) :=
  resultHolds_value .rcinc (List.Mem.head _) rfl noFrame_cleared (Nat.zero_le _) noReading_cleared

theorem actionNibble_le (a : SwitchAction) : (actionNibble a).toNat ≤ 10 := by
  cases a <;> decide

theorem swencOp_holds (p : Config.Params) (a : SwitchAction) (inp : InputState) :
    resultHolds (swencOp p a inp ResultState.cleared) := by
  refine resultHolds_check (.swenc a) (List.Mem.head _) fun _ => resultHolds_check (.swenc a) (List.Mem.head _) fun _ => ?_
  have hlen : (switchFrame p a (inp.slice 0 10)).length = 15 := by
    rw [switchFrame_length, slice_length inp 0 10 (by decide)]
  exact resultHolds_frame (.swenc a) (List.Mem.tail _ (List.Mem.head _)) (Or.inr (Or.inl hlen)) rfl rfl rfl
    (actionNibble_le a) noReading_cleared

theorem swdecOp_holds (p : Config.Params) (inp : InputState) : resultHolds (swdecOp p inp ResultState.cleared) := by
  refine resultHolds_check .swdec (by decide) fun _ => resultHolds_check .swdec (by decide) fun _ =>
    resultHolds_check .swdec (by decide) fun _ => ?_
  cases switchActionOf p (inp.slice 12 2) with
  | none => exact resultHolds_refused (legalCode_of_raisedBy (i := .swdec) (by decide))
  | some a =>
    exact resultHolds_frame .swdec (by decide) (Or.inl (slice_length inp 2 10 (by decide))) rfl rfl rfl
      (actionNibble_le a) noReading_cleared

theorem cvencOp_holds (p : Config.Params) (code : Nibble) (inp : InputState) :
    resultHolds (cvencOp p code inp ResultState.cleared) := by
  refine resultHolds_check (.cvenc code) (List.Mem.head _) fun hcode => ?_
  obtain ⟨-, hle⟩ := (isCoverCode_iff _).1 (Bool.not_eq_false _ ▸ hcode)
  cases rollingField p inp.argRc with
  | none => exact resultHolds_refused (legalCode_of_raisedBy (i := .cvenc code) (List.Mem.tail _ (List.Mem.head _)))
  | some rf =>
    exact resultHolds_frame (.cvenc code) (List.Mem.tail _ (List.Mem.tail _ (List.Mem.head _)))
      (Or.inr (Or.inr (coverFrame_length ..))) rfl rfl rfl hle noReading_cleared

theorem cvdecOp_holds (p : Config.Params) (inp : InputState) : resultHolds (cvdecOp p inp ResultState.cleared) := by
  refine resultHolds_check .cvdec (by decide) fun _ => resultHolds_check .cvdec (by decide) fun _ =>
    resultHolds_check .cvdec (by decide) fun _ => resultHolds_check .cvdec (by decide) fun _ =>
    resultHolds_check .cvdec (by decide) fun hcode => ?_
  obtain ⟨-, hle⟩ := (isCoverCode_iff _).1 (Bool.not_eq_false _ ▸ hcode)
  have hcmd : (coverFields inp ResultState.cleared).rCmd.toNat ≤ 10 := (Nat.mod_le _ _).trans hle
  exact iteInduction
    (fun _ => resultHolds_value .cvdec (by decide) rfl noFrame_cleared hcmd noReading_cleared)
    (fun _ => resultHolds_value .cvdec (by decide) rfl noFrame_cleared hcmd noReading_cleared)

theorem flagWb_sflagsOf (wb nb hv : Bool) : flagWb (sflagsOf wb nb hv) = wb := by
  revert wb nb hv; decide

theorem batteryPercent_mem (nb : Bool) : batteryPercent false nb ∈ ([0, 50, 100] : List Byte) := by
  revert nb; decide

/-- The ranges of a reading under LITERAL (rules R161 to R165). -/
theorem rangesHeld_sensorFields {i : InputState} (hdec : sensorDecimals i) {r : ResultState} (hcmd : r.rCmd.toNat ≤ 10) :
    rangesHeld (sensorFields Config.hardware i r) := by
  have hweak : weakFlag Config.hardware.weakBatMode (hexval (i.inByte 9)) = false := weakFlag_literal _
  have htemp : (sensorFields Config.hardware i r).rTemp.toInt = (sensorDecimal i : Int) - 400 :=
    toInt_temperature (sensorDecimal_le hdec)
  have hdev : (sensorFields Config.hardware i r).rDevId.toNat = hexbyte i 4 % 64 / 4 := by
    rw [← deviceId_toNat, ← deviceId_eq]
    rfl
  have hmax := sensorDecimal_le hdec
  refine ⟨hcmd, by omega, by omega, by omega, ?_, ?_⟩
  · simp only [sensorFields, hweak]
    exact batteryPercent_mem _
  · simp only [sensorFields, hweak]
    exact flagWb_sflagsOf ..

theorem crcVerdictTrue_sndecStage4 (i : InputState) : crcVerdictTrue (sndecStage4 i ResultState.cleared) := by
  intro hok
  rw [statusCrcOk_sndecStage4] at hok
  exact beq_iff_eq.1 hok

theorem sndecDelivered_holds {i : InputState} (hdec : sensorDecimals i) :
    resultHolds (sndecDelivered Config.hardware i) := by
  rw [← sndecStage5_of_decimals Config.hardware hdec]
  have hranges : rangesHeld (sensorFields Config.hardware i (sndecStage4 i ResultState.cleared)) :=
    rangesHeld_sensorFields hdec (Nat.zero_le _)
  have hcrc : crcVerdictTrue (sensorFields Config.hardware i (sndecStage4 i ResultState.cleared)) :=
    crcVerdictTrue_sndecStage4 i
  have hends (c : StatusCode) (hcode : c ∈ raisedBy .sndec) :
      resultHolds (finish c (setFv (sensorFields Config.hardware i (sndecStage4 i ResultState.cleared)))) :=
    resultHolds_delivered (legalCode_of_raisedBy hcode) (outputShaped_of_noFrame noFrame_cleared) hranges hcrc
  have hall : (i.slice 6 3).all isdec = true := (sensorDecimals_iff i).2 hdec
  rw [sndecStage5, if_neg (by rw [hall]; decide)]
  exact iteInduction (fun _ => hends _ (by decide)) (fun _ => hends _ (by decide))

theorem sndecOp_holds (inp : InputState) : resultHolds (sndecOp Config.hardware inp ResultState.cleared) := by
  rcases sndecOp_cases Config.hardware inp with ⟨c, hcode, hend⟩ | ⟨c, hcode, hend⟩ | ⟨-, hdec, hend⟩
  · exact hend ▸ resultHolds_refused (legalCode_of_raisedBy hcode)
  · exact hend ▸ resultHolds_failed (legalCode_of_raisedBy hcode) noFields_cleared (crcVerdictTrue_sndecStage4 inp)
  · exact hend ▸ sndecDelivered_holds hdec

theorem opOf_holds (i : Instr) (inp : InputState) : resultHolds (opOf i inp ResultState.cleared) := by
  cases i with
  | nop => exact nopOp_holds inp
  | crc8 => exact crc8Op_holds inp
  | xcs => exact xcsOp_holds inp
  | cvcs => exact cvcsOp_holds inp
  | swenc a => exact swencOp_holds _ a inp
  | swdec => exact swdecOp_holds _ inp
  | cvenc code => exact cvencOp_holds _ code inp
  | cvdec => exact cvdecOp_holds _ inp
  | sndec => exact sndecOp_holds inp
  | rcinc => exact rcincOp_holds inp

theorem legalCode_illegalOp : legalCode .illegalOp := by
  unfold legalCode
  decide

theorem opOfWord_holds (w : Byte) (inp : InputState) : resultHolds (opOfWord w inp ResultState.cleared) := by
  cases hw : decode w with
  | ok i => exact opOfWord_ok hw ▸ opOf_holds i inp
  | error e =>
    have hop : opOfWord w = illegalOp := by rw [opOfWord, hw]
    exact hop ▸ resultHolds_refused legalCode_illegalOp

/-! ### Accesses and steps -/

theorem resultHolds_reset : resultHolds ResultState.reset := by
  refine ⟨?_, outputShaped_of_noFrame noFrame_cleared, rangesHeld_of_noFields noFields_cleared, fun _ => noFields_cleared,
    fun _ => rfl⟩
  unfold statusLegal
  decide

theorem perform_keeps_results {e : HostEvent} {s t : State} (h : resultHolds s.result) (ht : perform e s = .next t) :
    resultHolds t.result := by
  rcases perform_cases ht with ⟨off, rfl, -⟩ | ⟨off, v, hwrite, -⟩ | ⟨-, rfl⟩
  · exact h
  · rcases hostWrite_cases hwrite with ⟨-, rfl⟩ | ⟨-, rfl⟩
    · exact opOfWord_holds v _
    · exact h
  · exact resultHolds_reset

/-! ### The statements -/

/-- Settles O51: a step takes an access, and an access leaves the results, resets them, or runs a word's operation. -/
theorem everyStepKeepsTheResultRanges : Obligations.EveryStepKeepsTheResultRanges := by
  intro s t h hstep
  rcases step_cases hstep with ⟨-, rfl⟩ | ⟨e, rest, -, hperform⟩
  · exact h
  · exact perform_keeps_results (s := { s with pending := rest }) h hperform

/-- Settles O53: a step takes an access, which puts on record what it does to CMD and STATUS. -/
theorem everyStepKeepsTheRecord : Obligations.EveryStepKeepsTheRecord := by
  intro s t h hstep
  rcases step_cases hstep with ⟨-, rfl⟩ | ⟨e, rest, -, hperform⟩
  · exact h
  · exact perform_keeps_record (s := { s with pending := rest }) h hperform

/-- Settles O50: reset clears every result register but STATUS, which reads NONE. -/
theorem resetMeetsTheResultRanges : Obligations.ResetMeetsTheResultRanges := resultHolds_reset

/-- Settles O52: with no command on record CMD and STATUS are those of reset. -/
theorem resetMeetsTheRecord : Obligations.ResetMeetsTheRecord := ⟨rfl, rfl⟩

end Sys2Proof.Machine
end
